-- ==== Sys2Proof/Word.lean ====
section
/-! DEFINITION. The widths of the block (00_scope.md R10): bytes of the frame buffer, 16-bit offsets,
lengths and codes, 32-bit registers; and the store of an unbounded natural number into 16 bits (R15). -/

namespace Sys2Proof

/-- One byte of the frame buffer (20_memory.md R70). -/
abbrev Byte := BitVec 8

/-- A 16-bit offset, length or code (00_scope.md R10). -/
abbrev Half := BitVec 16

/-- A 32-bit host-visible register (00_scope.md R10). -/
abbrev Word := BitVec 32

/-- Storing a natural number into a 16-bit field (00_scope.md R15: offset arithmetic is on unbounded
natural numbers, the result is then stored in a field of the stated width). -/
def half (n : Nat) : Half := BitVec.ofNat 16 n

end Sys2Proof
end

