-- ==== Sys2Proof/Syntax.lean ====
section
/-! DEFINITION. The instruction set: one constructor per row of spec/opcode_table.json, in the
table's order. The block is no instruction-set processor (00_scope.md R2): its "instructions" are the
decisions of its classifier, the operations of its state machine, the host command words, and the
decisions of the two reference downstream units. A constructor carries the bits of its row that the
table's source_fields name and its mask leaves open (log 15). -/

namespace Sys2Proof

/-- One constructor per row of spec/opcode_table.json. -/
inductive Instr where
  /-- VLAN_TPID: EtherType code 0x8100 (30_encoding.md R108). -/
  | vlanTpid
  /-- ETYPE_ARP: EtherType code 0x0806 (R108). -/
  | etypeArp
  /-- ETYPE_IPV4: EtherType code 0x0800 (R108, 92_eei_decisions.md D19, log 14). -/
  | etypeIpv4
  /-- ETYPE_OTHER: any other EtherType code (R108, R109). -/
  | etypeOther (code : Half)
  /-- IDLE: STATE = 0x0 (R112). -/
  | idle
  /-- ETH_ADDR: STATE = 0x1 (R112). -/
  | ethAddr
  /-- TAG_PEEK: STATE = 0x2 (R112). -/
  | tagPeek
  /-- TAG_READ: STATE = 0x3 (R112). -/
  | tagRead
  /-- ETYPE_LATCH: STATE = 0x4 (R112). -/
  | etypeLatch
  /-- DISPATCH: STATE = 0x5 (R112). -/
  | dispatch
  /-- DS_WAIT: STATE = 0x6 (R112). -/
  | dsWait
  /-- SET_MODE: a CTRL word with bit 0 = 0; `mode` is its bits 2:1 (R115). -/
  | setMode (mode : BitVec 2)
  /-- START_AUTO: CTRL bits 2:0 = 0b001 (R115). -/
  | startAuto
  /-- START_EXPECT_ARP: CTRL bits 2:0 = 0b011 (R115). -/
  | startExpectArp
  /-- START_EXPECT_IPV4: CTRL bits 2:0 = 0b101 (R115). -/
  | startExpectIpv4
  /-- START_RESERVED: CTRL bits 2:0 = 0b111 (R115). -/
  | startReserved
  /-- ARP_DECODE: DS_CLASS = 0 (R117). -/
  | arpDecode
  /-- IPV4_DECODE: DS_CLASS = 1 (R117). -/
  | ipv4Decode
  /-- ARP_BODY_IPV4: proto_fmt = 0x0800 (R111, 43_arp_reference.md R182). -/
  | arpBodyIpv4
  /-- ARP_BODY_OTHER: any other proto_fmt (R111, R182). -/
  | arpBodyOther (protoFmt : Half)
  /-- OPT_EOL: an option type byte whose bits 4:0 are 0 (R114); bits 7 and 6:5 are free. -/
  | optEol (copy : BitVec 1) (cls : BitVec 2)
  /-- OPT_TLV: an option type byte whose bits 4:0 are not 0 (R114). -/
  | optTlv (copy : BitVec 1) (cls : BitVec 2) (number : BitVec 5)
deriving DecidableEq, Repr

end Sys2Proof
end

