-- ==== Sys2Proof/WellFormed.lean ====
section
/-! DEFINITION. Which instruction terms stand for an encoding. The three "any other value" rows of
the table (ETYPE_OTHER, ARP_BODY_OTHER, OPT_TLV) exclude the values their exact neighbours take
(30_encoding.md R108: OTHER applies exactly when no exact row does; R111; R114). -/

namespace Sys2Proof

/-- The term's fields hold a value its row of the table stands for. -/
def Instr.wf : Instr → Bool
  | .etypeOther code => code != 0x8100#16 && code != 0x0806#16 && code != 0x0800#16
  | .arpBodyOther protoFmt => protoFmt != 0x0800#16
  | .optTlv _ _ number => number != 0#5
  | .vlanTpid => true
  | .etypeArp => true
  | .etypeIpv4 => true
  | .idle => true
  | .ethAddr => true
  | .tagPeek => true
  | .tagRead => true
  | .etypeLatch => true
  | .dispatch => true
  | .dsWait => true
  | .setMode _ => true
  | .startAuto => true
  | .startExpectArp => true
  | .startExpectIpv4 => true
  | .startReserved => true
  | .arpDecode => true
  | .ipv4Decode => true
  | .arpBodyIpv4 => true
  | .optEol _ _ => true

end Sys2Proof
end

