-- ==== Sys2Proof/Decode.lean ====
section
/-! DEFINITION. The decoder, total on any word and rejecting by name, and the encoder.

The table's rows stand in six code spaces (30_encoding.md R108, R111, R112, R114, R115, R117). A word
alone does not say which space it is from: the agent that presents it does (the engine presents
STATE, the host a CTRL word, the hand-off port DS_CLASS, TAG_PEEK and DISPATCH an EtherType code,
ARP_DECODE a proto_fmt, the option walk a type byte). So the decoder takes the space (log 3). -/

namespace Sys2Proof

/-- The six code spaces of spec/opcode_table.json (its column "format"). -/
inductive Space where
  /-- `ethertype16`: the classifier's code space (R108). -/
  | etherType
  /-- `state4`: the sequencer's state codes (R112). -/
  | stateCode
  /-- `ctrl32`: the host command words (R115). -/
  | ctrlWord
  /-- `ds_class`: the downstream operation codes (R117). -/
  | dsClass
  /-- `arp_proto_fmt16`: the protocol-address-format codes (R111). -/
  | arpProto
  /-- `ipv4_opt_type8`: the option type bytes (R114). -/
  | optType
deriving DecidableEq, Repr

/-- Why a word is no instruction of a space. -/
inductive Reject where
  /-- A STATE code 0x7 to 0xF: never written, no operation (30_encoding.md R118). -/
  | reservedState (code : BitVec 4)
  /-- The word does not fit the width of the space. -/
  | tooWide (space : Space) (word : Word)
deriving DecidableEq, Repr

/-- What the decoder answers. -/
inductive Decoded where
  /-- The word's instruction. -/
  | ok (i : Instr)
  /-- The word is rejected, by name. -/
  | reject (r : Reject)
deriving DecidableEq, Repr

/-- The instruction a decoder answer names. -/
def Decoded.instr? : Decoded → Option Instr
  | .ok i => some i
  | .reject _ => none

/-- The width in bits of a space's words. -/
def Space.width : Space → Nat
  | .etherType => 16
  | .stateCode => 4
  | .ctrlWord => 32
  | .dsClass => 1
  | .arpProto => 16
  | .optType => 8

/-- The classifier's decode table (30_encoding.md R108). -/
def decodeEtherType (c : Half) : Instr :=
  if c = 0x8100#16 then .vlanTpid
  else if c = 0x0806#16 then .etypeArp
  else if c = 0x0800#16 then .etypeIpv4
  else .etypeOther c

/-- The sequencer's state codes (30_encoding.md R112); 0x7 to 0xF are rejected (R118). -/
def decodeState (c : BitVec 4) : Decoded :=
  if c = 0x0#4 then .ok .idle
  else if c = 0x1#4 then .ok .ethAddr
  else if c = 0x2#4 then .ok .tagPeek
  else if c = 0x3#4 then .ok .tagRead
  else if c = 0x4#4 then .ok .etypeLatch
  else if c = 0x5#4 then .ok .dispatch
  else if c = 0x6#4 then .ok .dsWait
  else .reject (.reservedState c)

/-- The host command words, first row that matches; bits 31:3 are ignored (30_encoding.md R115). -/
def decodeCtrl (w : Word) : Instr :=
  if w.extractLsb' 0 1 = 0b0#1 then .setMode (w.extractLsb' 1 2)
  else if w.extractLsb' 0 3 = 0b001#3 then .startAuto
  else if w.extractLsb' 0 3 = 0b011#3 then .startExpectArp
  else if w.extractLsb' 0 3 = 0b101#3 then .startExpectIpv4
  else .startReserved

/-- The downstream operation codes (30_encoding.md R117). -/
def decodeDsClass (c : BitVec 1) : Instr :=
  if c = 0#1 then .arpDecode else .ipv4Decode

/-- The protocol-address-format codes (30_encoding.md R111). -/
def decodeArpProto (f : Half) : Instr :=
  if f = 0x0800#16 then .arpBodyIpv4 else .arpBodyOther f

/-- The option type bytes: the decision is on bits 4:0 alone (30_encoding.md R114, C8). -/
def decodeOptType (t : Byte) : Instr :=
  if t.extractLsb' 0 5 = 0#5 then .optEol (t.extractLsb' 7 1) (t.extractLsb' 5 2)
  else .optTlv (t.extractLsb' 7 1) (t.extractLsb' 5 2) (t.extractLsb' 0 5)

/-- The decoder: a space and any word. -/
def decodeIn (sp : Space) (w : Word) : Decoded :=
  if 2 ^ sp.width ≤ w.toNat then .reject (.tooWide sp w)
  else match sp with
    | .etherType => .ok (decodeEtherType (w.setWidth 16))
    | .stateCode => decodeState (w.setWidth 4)
    | .ctrlWord => .ok (decodeCtrl w)
    | .dsClass => .ok (decodeDsClass (w.setWidth 1))
    | .arpProto => .ok (decodeArpProto (w.setWidth 16))
    | .optType => .ok (decodeOptType (w.setWidth 8))

/-- The code space an instruction's words are from. -/
def Instr.space : Instr → Space
  | .vlanTpid => .etherType
  | .etypeArp => .etherType
  | .etypeIpv4 => .etherType
  | .etypeOther _ => .etherType
  | .idle => .stateCode
  | .ethAddr => .stateCode
  | .tagPeek => .stateCode
  | .tagRead => .stateCode
  | .etypeLatch => .stateCode
  | .dispatch => .stateCode
  | .dsWait => .stateCode
  | .setMode _ => .ctrlWord
  | .startAuto => .ctrlWord
  | .startExpectArp => .ctrlWord
  | .startExpectIpv4 => .ctrlWord
  | .startReserved => .ctrlWord
  | .arpDecode => .dsClass
  | .ipv4Decode => .dsClass
  | .arpBodyIpv4 => .arpProto
  | .arpBodyOther _ => .arpProto
  | .optEol _ _ => .optType
  | .optTlv _ _ _ => .optType

/-- The word of an instruction in its space, bit 0 least significant (00_scope.md R14); the ignored
bits 31:3 of a CTRL word are 0. Written from the match column of the table and the field positions
of 30_encoding.md R114 and R115. -/
def encode : Instr → Word
  | .vlanTpid => 0x8100#32
  | .etypeArp => 0x0806#32
  | .etypeIpv4 => 0x0800#32
  | .etypeOther code => code.setWidth 32
  | .idle => 0x0#32
  | .ethAddr => 0x1#32
  | .tagPeek => 0x2#32
  | .tagRead => 0x3#32
  | .etypeLatch => 0x4#32
  | .dispatch => 0x5#32
  | .dsWait => 0x6#32
  | .setMode mode => mode.setWidth 32 <<< 1
  | .startAuto => 0x1#32
  | .startExpectArp => 0x3#32
  | .startExpectIpv4 => 0x5#32
  | .startReserved => 0x7#32
  | .arpDecode => 0x0#32
  | .ipv4Decode => 0x1#32
  | .arpBodyIpv4 => 0x0800#32
  | .arpBodyOther protoFmt => protoFmt.setWidth 32
  | .optEol copy cls => (copy ++ cls ++ 0#5).setWidth 32
  | .optTlv copy cls number => (copy ++ cls ++ number).setWidth 32

/-- The bits of a space's words that carry meaning: all, but for the ignored bits 31:3 of a CTRL word
(30_encoding.md R115). -/
def Space.liveBits : Space → Word
  | .etherType => 0xFFFF#32
  | .stateCode => 0xF#32
  | .ctrlWord => 0x7#32
  | .dsClass => 0x1#32
  | .arpProto => 0xFFFF#32
  | .optType => 0xFF#32

/-- Which space a bare table word of `nbits` bits is read in, where nothing presents it (DESIGN
CHOICE, log 3): up to 8 bits a STATE code where it is one, 0x7 the command START_RESERVED, any other
byte an option type; up to 16 bits an EtherType code; up to 32 bits a CTRL word. -/
def tableSpace (nbits w : Nat) : Option Space :=
  if 2 ^ 32 ≤ w then none
  else if nbits ≤ 8 then
    if w ≤ 6 then some .stateCode
    else if w = 7 then some .ctrlWord
    else some .optType
  else if nbits ≤ 16 then some .etherType
  else if nbits ≤ 32 then some .ctrlWord
  else none

/-- The instruction the decoder reads from a bare table word of `nbits` bits (log 3). -/
def decodeTableWord (nbits w : Nat) : Option Instr :=
  match tableSpace nbits w with
  | none => none
  | some sp => (decodeIn sp (BitVec.ofNat 32 w)).instr?

end Sys2Proof
end

