-- ==== Sys2Proof/Config.lean ====
section
/-! DEFINITION. What an implementation fixes, and the free value.

MAX_FRAME_LEN, VLAN_MAX_DEPTH and DS (00_scope.md R8, R9, R11) are plain data of State (the CONFIG
register and the field `dsUnit`), so that a statement ranges over every legal value of them; here
stand only the values State.reset takes (DESIGN CHOICE, log 5: those of the programs of
95_test_vectors.md section 3) and the bounds the rules give. CYCLES(op), N_INSTANCES, REG_BASE and
BUF_BASE (R12, R13, 20_memory.md R82) enter no rule of the block (log 12, log 13). -/

namespace Sys2Proof.Config

/-- FREE VALUE (log 4): the byte at a frame-buffer address that the host has not written since
power-on or the last reset, `bufDraw epoch address` (70_reset_and_hazards.md R300: "the model draws
each byte freely"). It has no body: nothing can be proved about its value. -/
opaque bufDraw : Nat → Nat → Byte

/-- The least legal MAX_FRAME_LEN (00_scope.md R8). -/
def minFrameLen : Nat := 14

/-- The number of IPv4 option slots (44_ipv4_reference.md R216). -/
def optionSlots : Nat := 20

/-- MAX_FRAME_LEN of State.reset (DESIGN CHOICE, log 5). -/
def maxFrameLen : Half := 1522#16

/-- VLAN_MAX_DEPTH of State.reset (DESIGN CHOICE, log 5). -/
def vlanMaxDepth : Half := 8#16

end Sys2Proof.Config
end

