-- ==== Sys2Proof/Machine/State.lean ====
section
/-! DEFINITION. State: everything the spec gives the block, as plain data, and the model's own fields
beside it; the reasons a step can stop; the state after reset. INVENTORY.md's "State" lists every
field with its rule and its reset value. Reserved register bits are hard-wired 0 (log 16; 10_state.md R41 to
R49) and are therefore no field: the register's word is assembled where it is read
(Machine/Flags.lean, Machine/HostPort.lean). -/

namespace Sys2Proof.Machine

/-- Who raises a fault: states that no run reaches, where the spec gives no effect (log 10). -/
inductive Fault where
  /-- Raised by the engine's step at STATE 0x7 to 0xF, for which the spec has no operation
  (30_encoding.md R118). Safe: no rule writes such a code. -/
  | reservedState
  /-- Raised by DISPATCH when MODE_L = 3, for which its case has no arm (45_frame_fsm.md R240).
  Safe: a START with MODE = 3 is ignored (R231), so no run reaches it. -/
  | reservedMode
  /-- Raised by an engine, downstream or option-walk read of the frame buffer at an address that does
  not exist (20_memory.md R70). Safe: a START with LEN > MAX_FRAME_LEN is refused (R87), so every
  read of a run lies in the buffer (R74). -/
  | bufferAddress
deriving DecidableEq, Repr

/-- Why a step is refused: the host actions the spec asks a model to refuse. -/
inductive Refusal where
  /-- An instruction that has no meaning yet, by its mnemonic: raised by exec's arm only. Safe. -/
  | notModelled (mnemonic : String)
  /-- A host register access that is not an aligned 32-bit access (20_memory.md R73). Safe. -/
  | registerAccessForm
  /-- A host frame-buffer access at an address ≥ MAX_FRAME_LEN (20_memory.md R76). Safe. -/
  | bufferRange
  /-- A host frame-buffer write while STATUS.BUSY = 1 (20_memory.md R86). Safe. -/
  | bufferBusy
  /-- A START taken with FRAME_LEN.LEN > MAX_FRAME_LEN (20_memory.md R87). Safe. -/
  | startTooLong
  /-- An EXTERNAL downstream unit's answer outside 0 to 3 (45_frame_fsm.md R247). Safe. -/
  | externalAnswer
deriving DecidableEq, Repr

/-- The parse modes of CTRL.MODE and MODE_L, all four 2-bit values (30_encoding.md R116). -/
inductive ParseMode where
  /-- 0: classify into ARP, IPv4 and unknown. -/
  | auto
  /-- 1: a code other than ARP is the error NOT_ARP. -/
  | expectArp
  /-- 2: a code other than IPv4 is the error NOT_IPV4. -/
  | expectIpv4
  /-- 3: reserved, no parse. -/
  | reserved
deriving DecidableEq, Repr

/-- The classifier's four answers (30_encoding.md R108). -/
inductive EtherClass where
  /-- 0x8100. -/
  | vlan
  /-- 0x0806. -/
  | arp
  /-- 0x0800. -/
  | ipv4
  /-- Any other code. -/
  | other
deriving DecidableEq, Repr

/-- STATUS.CLASS, all four 2-bit values (10_state.md R42). -/
inductive FrameClass where
  /-- 0 NONE: not yet classified. -/
  | unclassified
  /-- 1 ARP. -/
  | arp
  /-- 2 IPV4. -/
  | ipv4
  /-- 3 UNKNOWN. -/
  | unknown
deriving DecidableEq, Repr

/-- DS_CLASS, both 1-bit values (10_state.md R36, 30_encoding.md R117). -/
inductive DsClass where
  /-- 0 selects ARP_DECODE. -/
  | arp
  /-- 1 selects IPV4_DECODE. -/
  | ipv4
deriving DecidableEq, Repr

/-- The parameter DS (00_scope.md R11). -/
inductive DsUnit where
  /-- The reference units of 43_arp_reference.md and 44_ipv4_reference.md. -/
  | reference
  /-- An unspecified unit, constrained by 45_frame_fsm.md R247 only. -/
  | external
deriving DecidableEq, Repr

/-- The error outcomes (60_exceptions.md R270); their codes are in Machine/Flags.lean. -/
inductive ErrorKind where
  /-- TOO_SHORT. -/
  | tooShort
  /-- INVALID_HEADER_LENGTH. -/
  | invalidHeaderLength
  /-- INVALID_OPTIONS. -/
  | invalidOptions
  /-- NOT_ARP. -/
  | notArp
  /-- NOT_IPV4. -/
  | notIpv4
  /-- TAG_OVERFLOW. -/
  | tagOverflow
deriving DecidableEq, Repr

/-- The fields of STATUS (10_state.md R42). -/
structure Status where
  /-- Bit 0: 1 from an accepted START until the parse completes. -/
  busy : Bool
  /-- Bit 1: 1 from the completion of a parse until the next accepted START. -/
  done : Bool
  /-- Bits 3:2. -/
  cls : FrameClass
  /-- Bits 7:4. -/
  errCode : BitVec 4
  /-- Bit 8: ERR_CODE was delivered by the downstream unit. -/
  errDs : Bool
deriving DecidableEq, Repr

/-- The downstream hand-off registers (10_state.md R36). -/
structure Handoff where
  /-- DS_REQ. -/
  req : Bool
  /-- DS_CLASS. -/
  cls : DsClass
  /-- DS_BASE. -/
  base : Half
  /-- DS_LEN. -/
  len : Half
  /-- DS_ACK. -/
  ack : Bool
  /-- DS_RESP. -/
  resp : BitVec 4
deriving DecidableEq, Repr

/-- ETHERTYPE (10_state.md R44). -/
structure EtherTypeReg where
  /-- CODE, bits 15:0. -/
  code : Half
  /-- ETYPE_OFF, bits 31:16. -/
  off : Half
deriving DecidableEq, Repr

/-- PAYLOAD (10_state.md R45). -/
structure PayloadReg where
  /-- PAYLOAD_OFF, bits 15:0. -/
  off : Half
  /-- PAYLOAD_LEN, bits 31:16. -/
  len : Half
deriving DecidableEq, Repr

/-- VLAN_INFO (10_state.md R46). -/
structure VlanInfoReg where
  /-- VLAN_COUNT, bits 15:0. -/
  count : Half
  /-- VLAN_BYTES, bits 31:16. -/
  bytes : Half
deriving DecidableEq, Repr

/-- ADDR_VIEWS (10_state.md R47). -/
structure AddrViewsReg where
  /-- DST_OFF, bits 7:0. -/
  dstOff : Byte
  /-- DST_LEN, bits 15:8. -/
  dstLen : Byte
  /-- SRC_OFF, bits 23:16. -/
  srcOff : Byte
  /-- SRC_LEN, bits 31:24. -/
  srcLen : Byte
deriving DecidableEq, Repr

/-- CONFIG (10_state.md R48): the parameters of 00_scope.md R8 and R9. No step writes it. -/
structure ConfigReg where
  /-- VLAN_MAX_DEPTH, bits 15:0. -/
  vlanMaxDepth : Half
  /-- MAX_FRAME_LEN, bits 31:16. -/
  maxFrameLen : Half
deriving DecidableEq, Repr

/-- A view register's offset and length (43_arp_reference.md R190, 44_ipv4_reference.md R215). -/
structure View where
  /-- Bits 15:0. -/
  off : Half
  /-- Bits 23:16. -/
  len : Byte
deriving DecidableEq, Repr

/-- The ARP result window (43_arp_reference.md R190). -/
structure ArpWindow where
  hwFmt : Half
  protoFmt : Half
  hwLen : Byte
  protoLen : Byte
  op : Half
  sha : View
  spa : View
  tha : View
  tpa : View
deriving DecidableEq, Repr

/-- The IPv4 result window without the option slots (44_ipv4_reference.md R215). -/
structure IpWindow where
  ihl : BitVec 4
  version : BitVec 4
  ecn : BitVec 2
  dscp : BitVec 6
  totalLength : Half
  identification : Half
  fragmentOffset : BitVec 13
  flags : BitVec 3
  ttl : Byte
  protocol : Byte
  checksum : Half
  src : View
  dst : View
  optCount : Byte
  optRegionLen : Byte
  optRegionOff : Half
deriving DecidableEq, Repr

/-- One entry of the IPv4 option list (44_ipv4_reference.md R200, R216). -/
structure OptEntry where
  copy : BitVec 1
  cls : BitVec 2
  number : BitVec 5
  length : Byte
  valueOff : Half
deriving DecidableEq, Repr

/-- How far an option walk has come (44_ipv4_reference.md R208 to R210). -/
inductive WalkStatus where
  /-- The walk goes on at `q`. -/
  | walking
  /-- The walk ended: at EOL (R209) or at the region's end (R208). -/
  | ended
  /-- The walk answers INVALID_OPTIONS (R210). -/
  | invalid
deriving DecidableEq, Repr

/-- The variables of the option walk in the pseudocode of IPV4_DECODE: `q`, `e`, `opts`. -/
structure OptWalk where
  q : Nat
  e : Nat
  opts : List OptEntry
  status : WalkStatus
deriving DecidableEq, Repr

/-- HW_W and PR_W of the pseudocode of ARP_DECODE (43_arp_reference.md R182). -/
structure AddrWidths where
  hw : Nat
  pr : Nat
deriving DecidableEq, Repr

/-- The MODEL's own (log 7): the variables the pseudocode assigns and the combinational decisions
answer, which are no register of the block. -/
structure Units where
  /-- The classifier's last answer: `c` of DISPATCH, the answer TAG_PEEK branches on. -/
  cls : EtherClass
  /-- The last selected ARP widths. -/
  widths : AddrWidths
  /-- The option walk. -/
  walk : OptWalk
deriving DecidableEq, Repr

/-- The width of a host register access; only the 32-bit one has a meaning (20_memory.md R73). -/
inductive AccessWidth where
  | byte
  | half
  | word
deriving DecidableEq, Repr

/-- What the host can do at its two ports (20_memory.md R72, R76). -/
inductive HostAccess where
  /-- Read a register at a byte offset. -/
  | regRead (off : Nat) (width : AccessWidth)
  /-- Write a register at a byte offset. -/
  | regWrite (off : Nat) (width : AccessWidth) (value : Word)
  /-- Read one byte of the frame buffer. -/
  | bufRead (addr : Nat)
  /-- Write one byte of the frame buffer. -/
  | bufWrite (addr : Nat) (value : Byte)
deriving DecidableEq, Repr

/-- What the last host read returned (log 11). -/
inductive HostReply where
  /-- A register's value. -/
  | word (v : Word)
  /-- A frame-buffer byte. -/
  | byte (b : Byte)
deriving DecidableEq, Repr

/-- One decode step of an EXTERNAL downstream unit (45_frame_fsm.md R247): its answer, and what it
draws for its result windows, of which it writes the one of the request's class, with the answer OK only
(log 6, log 17). -/
structure ExternalAnswer where
  resp : BitVec 4
  arp : Option ArpWindow
  ip : Option IpWindow
  slots : List (Nat × Word)
deriving DecidableEq, Repr

/-- One step of the total order of 20_memory.md R84: whose step it is, with what the outside world
brings to it (log 1). The last three are the unit-level presentations of 95_test_vectors.md section 2
for the table's combinational rows (log 7). -/
inductive Move where
  /-- A host access. -/
  | host (a : HostAccess)
  /-- The engine's operation at STATE. -/
  | engine
  /-- The reference downstream unit's decode step. -/
  | downstream
  /-- An EXTERNAL unit's decode step. -/
  | external (x : ExternalAnswer)
  /-- The reset input (70_reset_and_hazards.md R300). -/
  | reset
  /-- A code presented to the classifier. -/
  | classify (c : Half)
  /-- A proto_fmt presented to the ARP width selection. -/
  | selectWidths (f : Half)
  /-- A type byte presented to the option walk. -/
  | optionByte (t : Byte)
deriving DecidableEq, Repr

/-- The whole machine: the block's registers and memory, its parameters, and the model's own fields. -/
structure State where
  /-- STATE, the block's program counter (10_state.md R31). -/
  state : BitVec 4
  /-- OFF, the offset cursor (R32). -/
  off : Half
  /-- LEN_L, the latched frame length (R33). -/
  lenL : Half
  /-- MODE_L, the latched mode (R34). -/
  modeL : ParseMode
  /-- CODE, the last peeked code (R35). -/
  code : Half
  /-- The hand-off registers (R36). -/
  ds : Handoff
  /-- CTRL.MODE (R41). -/
  ctrlMode : ParseMode
  /-- STATUS (R42). -/
  status : Status
  /-- FRAME_LEN.LEN (R43). -/
  frameLen : Half
  /-- ETHERTYPE (R44). -/
  etherType : EtherTypeReg
  /-- PAYLOAD (R45). -/
  payload : PayloadReg
  /-- VLAN_INFO (R46). -/
  vlanInfo : VlanInfoReg
  /-- ADDR_VIEWS (R47). -/
  addrViews : AddrViewsReg
  /-- CONFIG (R48), constant. -/
  config : ConfigReg
  /-- VLAN_TAG[] bits 15:0 (R49): (index, value) pairs, indexes rising, no zero value listed. -/
  vlanTag : List (Nat × Half)
  /-- The ARP result window (43_arp_reference.md R190). -/
  arp : ArpWindow
  /-- The IPv4 result window (44_ipv4_reference.md R215). -/
  ip : IpWindow
  /-- IP_OPT[] (44_ipv4_reference.md R216): (index, value) pairs, indexes rising, no zero listed. -/
  ipOpt : List (Nat × Word)
  /-- FRAME_BUF (20_memory.md R70): the bytes the host has written, addresses rising (log 4). -/
  frameBuf : List Host.Cell
  /-- The parameter DS (00_scope.md R11), constant. -/
  dsUnit : DsUnit
  /-- MODEL: how often the buffer's contents became unspecified (log 4). -/
  bufEpoch : Nat
  /-- MODEL: the pseudocode's variables (log 7). -/
  units : Units
  /-- MODEL: what the last host read returned (log 11). -/
  reply : Option HostReply
  /-- MODEL: the steps of the total order still to come (log 1). -/
  moves : List Move
deriving DecidableEq, Repr

/-- A view register at reset. -/
def View.zero : View := ⟨0#16, 0#8⟩

/-- The ARP window at reset (43_arp_reference.md R190). -/
def ArpWindow.zero : ArpWindow :=
  ⟨0#16, 0#16, 0#8, 0#8, 0#16, View.zero, View.zero, View.zero, View.zero⟩

/-- The IPv4 window at reset (44_ipv4_reference.md R215). -/
def IpWindow.zero : IpWindow :=
  ⟨0#4, 0#4, 0#2, 0#6, 0#16, 0#16, 0#13, 0#3, 0#8, 0#8, 0#16, View.zero, View.zero, 0#8, 0#8, 0#16⟩

/-- The model's own variables at reset (DESIGN CHOICE, log 7). -/
def Units.zero : Units := ⟨.other, ⟨0, 0⟩, ⟨0, 0, [], .ended⟩⟩

/-- The state after reset of a block with the given parameters (70_reset_and_hazards.md R300, R301);
the frame buffer lists nothing: every byte is a draw. -/
def State.resetWith (config : ConfigReg) (dsUnit : DsUnit) : State where
  state := 0x0#4
  off := 0#16
  lenL := 0#16
  modeL := .auto
  code := 0#16
  ds := ⟨false, .arp, 0#16, 0#16, false, 0#4⟩
  ctrlMode := .auto
  status := ⟨false, false, .unclassified, 0#4, false⟩
  frameLen := 0#16
  etherType := ⟨0#16, 0#16⟩
  payload := ⟨0#16, 0#16⟩
  vlanInfo := ⟨0#16, 0#16⟩
  addrViews := ⟨0#8, 0#8, 0#8, 0#8⟩
  config := config
  vlanTag := []
  arp := ArpWindow.zero
  ip := IpWindow.zero
  ipOpt := []
  frameBuf := []
  dsUnit := dsUnit
  bufEpoch := 0
  units := Units.zero
  reply := none
  moves := []

/-- The machine right after reset, with the parameters of log 5. -/
def State.reset : State :=
  State.resetWith ⟨Config.vlanMaxDepth, Config.maxFrameLen⟩ .reference

end Sys2Proof.Machine
end

