-- ==== Sys2Proof/Machine/Flags.lean ====
section
/-! DEFINITION. The block's only flags are the fields of STATUS (10_state.md R51): their codes, the
register's word, and every computation that writes one. -/

namespace Sys2Proof.Machine

/-- The error codes (60_exceptions.md R270). -/
def ErrorKind.code : ErrorKind → BitVec 4
  | .tooShort => 1#4
  | .invalidHeaderLength => 2#4
  | .invalidOptions => 3#4
  | .notArp => 4#4
  | .notIpv4 => 5#4
  | .tagOverflow => 6#4

/-- The code of OK (60_exceptions.md R270). -/
def okCode : BitVec 4 := 0#4

/-- The codes of STATUS.CLASS (10_state.md R42). -/
def FrameClass.code : FrameClass → BitVec 2
  | .unclassified => 0#2
  | .arp => 1#2
  | .ipv4 => 2#2
  | .unknown => 3#2

/-- The codes of CTRL.MODE and MODE_L (30_encoding.md R116). -/
def ParseMode.code : ParseMode → BitVec 2
  | .auto => 0#2
  | .expectArp => 1#2
  | .expectIpv4 => 2#2
  | .reserved => 3#2

/-- The mode a 2-bit field holds (30_encoding.md R116). -/
def ParseMode.ofBits (b : BitVec 2) : ParseMode :=
  if b = 0#2 then .auto
  else if b = 1#2 then .expectArp
  else if b = 2#2 then .expectIpv4
  else .reserved

/-- The bit of a flag. -/
def flagBit (b : Bool) : BitVec 1 := if b then 1#1 else 0#1

/-- The word of STATUS: reserved bits 31:9 hard-wired 0 (10_state.md R42). -/
def Status.word (t : Status) : Word :=
  0#23 ++ flagBit t.errDs ++ t.errCode ++ t.cls.code ++ flagBit t.done ++ flagBit t.busy

/-- STATUS after an accepted START: all 0 but BUSY (45_frame_fsm.md R230). -/
def Status.started : Status := ⟨true, false, .unclassified, 0#4, false⟩

/-- STATUS after finish(E): ERR_CODE the code of E, BUSY 0, DONE 1 (45_frame_fsm.md R244). -/
def Status.finished (t : Status) (code : BitVec 4) : Status :=
  { t with errCode := code, busy := false, done := true }

/-- STATUS.CLASS written by DISPATCH (45_frame_fsm.md R240). -/
def Status.withClass (t : Status) (c : FrameClass) : Status := { t with cls := c }

/-- STATUS.ERR_DS written by DS_WAIT on a downstream error (45_frame_fsm.md R243). -/
def Status.withErrDs (t : Status) : Status := { t with errDs := true }

/-- The class DISPATCH reports for a classifier answer: ARP 1, IPV4 2, else 3 (45_frame_fsm.md
R240). -/
def EtherClass.frameClass : EtherClass → FrameClass
  | .arp => .arp
  | .ipv4 => .ipv4
  | .other => .unknown
  | .vlan => .unknown

/-- The `busy` output (60_exceptions.md R280). -/
def State.busyOut (s : State) : Bool := s.status.busy

/-- The `done` output (60_exceptions.md R280). -/
def State.doneOut (s : State) : Bool := s.status.done

end Sys2Proof.Machine
end

