-- ==== Sys2Proof/Machine/Ops.lean ====
section
/-! DEFINITION. The named operations over memory and registers: sparse stores in canonical form, the
frame-buffer primitives, the register writes the rules name, and the completion of a parse, which is
this block's taking of an "exception" (60_exceptions.md R277: `finish` and `raise`; there is no
operation that returns from one, R278). -/

namespace Sys2Proof.Machine

/-- What a step answers. -/
abbrev Result := Host.Outcome State Fault Refusal

/-! ### Sparse stores: (key, value) pairs, keys strictly rising -/

/-- The value listed at a key. -/
def lookup {α : Type} : List (Nat × α) → Nat → Option α
  | [], _ => none
  | (k, v) :: rest, a => if k = a then some v else lookup rest a

/-- List a value at a key, keeping the keys rising. -/
def insertCell {α : Type} (a : Nat) (v : α) : List (Nat × α) → List (Nat × α)
  | [] => [(a, v)]
  | (k, w) :: rest =>
    if a < k then (a, v) :: (k, w) :: rest
    else if a = k then (a, v) :: rest
    else (k, w) :: insertCell a v rest

/-- List no value at a key. -/
def eraseCell {α : Type} (a : Nat) : List (Nat × α) → List (Nat × α)
  | [] => []
  | (k, w) :: rest => if k = a then eraseCell a rest else (k, w) :: eraseCell a rest

/-- The keys rise strictly. -/
abbrev KeysRise {α : Type} (m : List (Nat × α)) : Prop := m.Pairwise (fun x y => x.1 < y.1)

/-- The memory of the frame buffer. -/
abbrev Memory := List Host.Cell

/-- What a memory lists at an address; an unlisted address holds no value of its own (log 4). -/
def Memory.read (m : Memory) (a : Nat) : Option Byte := lookup m a

/-- Write one byte. -/
def Memory.write (m : Memory) (a : Nat) (v : Byte) : Memory := insertCell a v m

/-- The canonical form: addresses strictly rising. An unlisted address reads as no value, so no
entry can equal it. -/
abbrev Memory.wf (m : Memory) : Prop := KeysRise m

/-- A register array whose unlisted entries read 0: VLAN_TAG[] and IP_OPT[]. -/
def arrayRead {n : Nat} (f : List (Nat × BitVec n)) (j : Nat) : BitVec n := (lookup f j).getD 0#n

/-- Write one entry of a register array; a zero is not listed. -/
def arrayWrite {n : Nat} (f : List (Nat × BitVec n)) (j : Nat) (v : BitVec n) :
    List (Nat × BitVec n) :=
  if v = 0#n then eraseCell j f else insertCell j v f

/-- The canonical form of a register array: indexes strictly rising, no zero listed. -/
abbrev ArrayWf {n : Nat} (f : List (Nat × BitVec n)) : Prop := KeysRise f ∧ ∀ c ∈ f, c.2 ≠ 0#n

/-! ### Frame-buffer primitives (00_scope.md R16) -/

/-- The byte an address of the buffer reads as: the byte the host wrote last, or the free value of an
unwritten one (20_memory.md R76, 70_reset_and_hazards.md R300). `MemRead(a, 1)`. -/
def State.bufByte (s : State) (a : Nat) : Byte :=
  (Memory.read s.frameBuf a).getD (Config.bufDraw s.bufEpoch a)

/-- `MemRead(a, 2)` = `BE16(a)`: the byte at the lower address is the more significant (R16, R77). -/
def State.be16 (s : State) (a : Nat) : Half := s.bufByte a ++ s.bufByte (a + 1)

/-- `MemWrite(a, 1, v)`, used by the host only (R16, 20_memory.md R76). -/
def State.bufWrite (s : State) (a : Nat) (v : Byte) : State :=
  { s with frameBuf := Memory.write s.frameBuf a v }

/-! ### STATE codes (30_encoding.md R112) -/

/-- IDLE. -/
def StateCode.idle : BitVec 4 := 0x0#4
/-- ETH_ADDR. -/
def StateCode.ethAddr : BitVec 4 := 0x1#4
/-- TAG_PEEK. -/
def StateCode.tagPeek : BitVec 4 := 0x2#4
/-- TAG_READ. -/
def StateCode.tagRead : BitVec 4 := 0x3#4
/-- ETYPE_LATCH. -/
def StateCode.etypeLatch : BitVec 4 := 0x4#4
/-- DISPATCH. -/
def StateCode.dispatch : BitVec 4 := 0x5#4
/-- DS_WAIT. -/
def StateCode.dsWait : BitVec 4 := 0x6#4

/-! ### Register writes -/

/-- `STATE <- c` (00_scope.md R17). -/
def State.goto (s : State) (c : BitVec 4) : State := { s with state := c }

/-- `finish(E)`, E given by its code: complete the parse (45_frame_fsm.md R244). The one operation
that takes this block's "exceptions" (60_exceptions.md R277): ERR_CODE, BUSY, DONE and STATE, no other
register. -/
def State.finish (s : State) (code : BitVec 4) : State :=
  { s with status := s.status.finished code, state := StateCode.idle }

/-- `raise E` is `finish(E)` (00_scope.md R18). -/
def State.raise (s : State) (e : ErrorKind) : State := s.finish e.code

/-- CTRL.MODE <- m: every CTRL write does this (45_frame_fsm.md R230). -/
def State.setCtrlMode (s : State) (m : ParseMode) : State := { s with ctrlMode := m }

/-- FRAME_LEN.LEN <- n (10_state.md R43). -/
def State.setFrameLen (s : State) (n : Half) : State := { s with frameLen := n }

/-- The writes of an accepted START (45_frame_fsm.md R230): the inputs latched, the cursor and the
results cleared, BUSY set, STATE <- ETH_ADDR. VLAN_TAG[] and the windows are not cleared. -/
def State.beginParse (s : State) (m : ParseMode) : State :=
  { s with
    lenL := s.frameLen
    modeL := m
    off := 0#16
    code := 0#16
    status := Status.started
    etherType := ⟨0#16, 0#16⟩
    payload := ⟨0#16, 0#16⟩
    vlanInfo := ⟨0#16, 0#16⟩
    addrViews := ⟨0#8, 0#8, 0#8, 0#8⟩
    state := StateCode.ethAddr }

/-- The register writes of ETH_ADDR: the two address views, OFF <- 12, STATE <- TAG_PEEK
(41_ethernet_reader.md R151). -/
def State.latchAddrViews (s : State) : State :=
  { s with addrViews := ⟨0#8, 6#8, 6#8, 6#8⟩, off := 12#16, state := StateCode.tagPeek }

/-- `CODE <- c` (42_vlan_stack.md R162). -/
def State.setCode (s : State) (c : Half) : State := { s with code := c }

/-- The register writes of TAG_READ: append a tag control field to the accumulator, count it, move
past the tag, STATE <- TAG_PEEK (42_vlan_stack.md R164). -/
def State.pushTag (s : State) (v : Half) : State :=
  { s with
    vlanTag := arrayWrite s.vlanTag s.vlanInfo.count.toNat v
    vlanInfo := ⟨half (s.vlanInfo.count.toNat + 1), half (4 * (s.vlanInfo.count.toNat + 1))⟩
    off := half (s.off.toNat + 4)
    state := StateCode.tagPeek }

/-- The register writes of ETYPE_LATCH (45_frame_fsm.md R238). -/
def State.latchEtherType (s : State) : State :=
  { s with
    etherType := ⟨s.code, s.off⟩
    off := half (s.off.toNat + 2)
    payload := ⟨half (s.off.toNat + 2), half (s.lenL.toNat - (s.off.toNat + 2))⟩
    state := StateCode.dispatch }

/-- `STATUS.CLASS <- c` (45_frame_fsm.md R240). -/
def State.setClass (s : State) (c : FrameClass) : State :=
  { s with status := s.status.withClass c }

/-- `STATUS.ERR_DS <- 1` (45_frame_fsm.md R243). -/
def State.setErrDs (s : State) : State := { s with status := s.status.withErrDs }

/-- `ds_issue(c)`: hand the payload off and wait (45_frame_fsm.md R240). -/
def State.issue (s : State) (c : DsClass) : State :=
  { s with
    ds := { s.ds with cls := c, base := s.payload.off, len := s.payload.len, ack := false, req := true }
    state := StateCode.dsWait }

/-- `DS_REQ <- 0; DS_ACK <- 0` (45_frame_fsm.md R243). -/
def State.clearRequest (s : State) : State :=
  { s with ds := { s.ds with req := false, ack := false } }

/-- The downstream unit's answer: `DS_RESP <- r; DS_ACK <- 1` (45_frame_fsm.md R246). -/
def State.answer (s : State) (r : BitVec 4) : State :=
  { s with ds := { s.ds with resp := r, ack := true } }

/-- All six registers of the ARP window in one step (43_arp_reference.md R191). -/
def State.setArp (s : State) (w : ArpWindow) : State := { s with arp := w }

/-- The IPv4 window and the option slots in one step (44_ipv4_reference.md R217). -/
def State.setIp (s : State) (w : IpWindow) (slots : List (Nat × Word)) : State :=
  { s with ip := w, ipOpt := slots }

/-- MODEL: the classifier answers (log 7). -/
def State.answerClass (s : State) (c : EtherClass) : State :=
  { s with units := { s.units with cls := c } }

/-- MODEL: the ARP widths are selected (log 7). -/
def State.answerWidths (s : State) (w : AddrWidths) : State :=
  { s with units := { s.units with widths := w } }

/-- MODEL: the option walk moves (log 7). -/
def State.setWalk (s : State) (w : OptWalk) : State :=
  { s with units := { s.units with walk := w } }

/-- MODEL: a host read returns a value (log 11). -/
def State.setReply (s : State) (r : HostReply) : State := { s with reply := some r }

/-- MODEL: the steps still to come (log 1). -/
def State.setMoves (s : State) (ms : List Move) : State := { s with moves := ms }

/-- Taking reset (70_reset_and_hazards.md R300): every register to its reset value, any parse or
decode in progress discarded, the parameters kept. The buffer's contents become unspecified, so every
byte is a new draw (log 4); the model's input list and the host's last reply stay. -/
def State.takeReset (s : State) : State :=
  { State.resetWith s.config s.dsUnit with
    bufEpoch := s.bufEpoch + 1
    reply := s.reply
    moves := s.moves }

/-! ### The START command (45_frame_fsm.md R230, R231) -/

/-- A CTRL write with START = 1 and mode `m`: MODE is updated; the START is ignored while a parse runs
or with the reserved mode (R231); it is refused when the length does not fit the buffer (20_memory.md
R87); else the parse begins. -/
def startCommand (m : ParseMode) (s : State) : Result :=
  if s.state ≠ StateCode.idle ∨ m = .reserved then .next (s.setCtrlMode m)
  else if s.config.maxFrameLen.toNat < s.frameLen.toNat then .refused .startTooLong
  else .next ((s.setCtrlMode m).beginParse m)

end Sys2Proof.Machine
end

