-- ==== Sys2Proof/Machine/Operands.lean ====
section
/-! DEFINITION. The operand forms: the classifier's decision, the tag control field, the wire fields
of the ARP and IPv4 formats, and one turn of the option walk. -/

namespace Sys2Proof.Machine

/-! ### The classifier (40_ethertype_classifier.md R140) -/

/-- CLASSIFY, a combinational function of the code alone. -/
def classify (c : Half) : EtherClass :=
  if c = 0x8100#16 then .vlan
  else if c = 0x0806#16 then .arp
  else if c = 0x0800#16 then .ipv4
  else .other

/-- DS_CLASS of a handed-off class: ARP 0, else 1 (45_frame_fsm.md R240). -/
def EtherClass.dsClass : EtherClass → DsClass
  | .arp => .arp
  | .ipv4 => .ipv4
  | .other => .ipv4
  | .vlan => .ipv4

/-! ### The tag control field (30_encoding.md R105) -/

/-- PRIORITY, bits 15:13. -/
def tagPriority (v : Half) : BitVec 3 := v.extractLsb' 13 3

/-- DROP_ELIGIBLE, bit 12. -/
def tagDropEligible (v : Half) : Bool := v.extractLsb' 12 1 = 1#1

/-- VLAN_ID, bits 11:0. -/
def tagVlanId (v : Half) : BitVec 12 := v.extractLsb' 0 12

/-! ### ARP (30_encoding.md R110, R111) -/

/-- Width selection on proto_fmt alone (43_arp_reference.md R182, R186). -/
def arpWidths (protoFmt : Half) : AddrWidths :=
  if protoFmt = 0x0800#16 then ⟨6, 4⟩ else ⟨6, 6⟩

/-- The length of an ARP header and body of the given widths (43_arp_reference.md R180). -/
def arpLength (w : AddrWidths) : Nat := 8 + 2 * w.hw + 2 * w.pr

/-- A view register's value (00_scope.md R18). -/
def view (off len : Nat) : View := ⟨half off, BitVec.ofNat 8 len⟩

/-- The ARP result window of a payload at `p` (43_arp_reference.md R180, R181, R183, R190). -/
def arpWindowOf (s : State) (p : Nat) (w : AddrWidths) : ArpWindow where
  hwFmt := s.be16 p
  protoFmt := s.be16 (p + 2)
  hwLen := s.bufByte (p + 4)
  protoLen := s.bufByte (p + 5)
  op := s.be16 (p + 6)
  sha := view (p + 8) w.hw
  spa := view (p + 8 + w.hw) w.pr
  tha := view (p + 8 + w.hw + w.pr) w.hw
  tpa := view (p + 8 + 2 * w.hw + w.pr) w.pr

/-! ### IPv4 options (30_encoding.md R114, 44_ipv4_reference.md R208 to R210) -/

/-- The type byte of an option entry. -/
def optTypeByte (copy : BitVec 1) (cls : BitVec 2) (number : BitVec 5) : Byte :=
  copy ++ cls ++ number

/-- The word of an option slot (44_ipv4_reference.md R216). -/
def OptEntry.word (o : OptEntry) : Word :=
  o.valueOff ++ o.length ++ o.copy ++ o.cls ++ o.number

/-- A walk is at an entry: it has neither ended nor failed, and `q < e`. -/
def OptWalk.live (w : OptWalk) : Bool := w.status = .walking && decide (w.q < w.e)

/-- `while q < e` is over: the walk ends normally (R208). -/
def OptWalk.close (w : OptWalk) : OptWalk :=
  if w.status = .walking then { w with status := .ended } else w

/-- EOL at `q` (R209): the walk ends, nothing is appended. -/
def walkEol (w : OptWalk) : OptWalk :=
  if w.live then { w with status := .ended } else w.close

/-- An entry at `q` whose type byte is not EOL (R208, R210): the three checks in their order, then the
entry is appended and `q` moves past it. `rd` reads one byte of the frame buffer. -/
def walkEntry (rd : Nat → Byte) (copy : BitVec 1) (cls : BitVec 2) (number : BitVec 5)
    (w : OptWalk) : OptWalk :=
  if w.live then
    if w.e < w.q + 2 then { w with status := .invalid }
    else
      let len := rd (w.q + 1)
      if len.toNat < 2 then { w with status := .invalid }
      else if w.e < w.q + len.toNat then { w with status := .invalid }
      else { w with
        q := w.q + len.toNat
        opts := w.opts ++ [⟨copy, cls, number, len, half (w.q + 2)⟩] }
  else w.close

/-- One turn of the walk on the type byte `t` at `q`: EOL when bits 4:0 are 0 (R209), else an entry. -/
def walkTurn (rd : Nat → Byte) (t : Byte) (w : OptWalk) : OptWalk :=
  if t.extractLsb' 0 5 = 0#5 then walkEol w
  else walkEntry rd (t.extractLsb' 7 1) (t.extractLsb' 5 2) (t.extractLsb' 0 5) w

/-- The walk, for at most `fuel` turns: `while q < e` (R208). -/
def walkOptions (rd : Nat → Byte) : Nat → OptWalk → OptWalk
  | 0, w => w
  | fuel + 1, w => if w.live then walkOptions rd fuel (walkTurn rd (rd w.q) w) else w.close

/-- The walk of the options region [p + 20, p + 4·ihl) (44_ipv4_reference.md R206). A live turn moves
`q` by at least 2 or ends the walk, so the region's length plus one turns suffice. -/
def walkRegion (rd : Nat → Byte) (p ihl : Nat) : OptWalk :=
  walkOptions rd (4 * ihl - 20 + 1) ⟨p + 20, p + 4 * ihl, [], .walking⟩

/-- Write the entries into slots j, j+1, …; the other slots keep their values
(44_ipv4_reference.md R217). -/
def writeSlots : List OptEntry → Nat → List (Nat × Word) → List (Nat × Word)
  | [], _, f => f
  | o :: os, j, f => writeSlots os (j + 1) (arrayWrite f j o.word)

/-! ### The IPv4 header (30_encoding.md R113) -/

/-- The version, bits 7:4 of byte p (44_ipv4_reference.md R203). -/
def ipVersion (s : State) (p : Nat) : BitVec 4 := (s.bufByte p).extractLsb' 4 4

/-- The header length in words, bits 3:0 of byte p (44_ipv4_reference.md R203). -/
def ipIhl (s : State) (p : Nat) : BitVec 4 := (s.bufByte p).extractLsb' 0 4

/-- The IPv4 result window of a header at `p` with the given option list
(44_ipv4_reference.md R203, R204, R205, R215; the places of DSCP and ECN: log 14). -/
def ipWindowOf (s : State) (p : Nat) (opts : List OptEntry) : IpWindow where
  ihl := ipIhl s p
  version := ipVersion s p
  ecn := (s.bufByte (p + 1)).extractLsb' 0 2
  dscp := (s.bufByte (p + 1)).extractLsb' 2 6
  totalLength := s.be16 (p + 2)
  identification := s.be16 (p + 4)
  fragmentOffset := (s.be16 (p + 6)).extractLsb' 0 13
  flags := (s.be16 (p + 6)).extractLsb' 13 3
  ttl := s.bufByte (p + 8)
  protocol := s.bufByte (p + 9)
  checksum := s.be16 (p + 10)
  src := view (p + 12) 4
  dst := view (p + 16) 4
  optCount := BitVec.ofNat 8 opts.length
  optRegionLen := BitVec.ofNat 8 (((ipIhl s p).toNat - 5) * 4)
  optRegionOff := half (p + 20)

end Sys2Proof.Machine
end

