-- ==== Sys2Proof/Machine/ArpUnit.lean ====
section
/-! DEFINITION. The reference downstream ARP unit (43_arp_reference.md) and its two width rows. -/

namespace Sys2Proof.Machine

/-- ARP_DECODE(DS_BASE, DS_LEN) (43_arp_reference.md R180): the header check, the width selection, the
body check, then all six window registers in the same step; TOO_SHORT leaves the window (R191). The
unit's input [P, P + R) lies in the buffer in every run (log 10). -/
def execArpDecode (s : State) : Result :=
  let p := s.ds.base.toNat
  let r := s.ds.len.toNat
  if r < 8 then .next (s.answer ErrorKind.tooShort.code)
  else if s.config.maxFrameLen.toNat < p + r then .fault .bufferAddress
  else
    let w := arpWidths (s.be16 (p + 2))
    let s1 := s.answerWidths w
    if r < arpLength w then .next (s1.answer ErrorKind.tooShort.code)
    else .next ((s1.setArp (arpWindowOf s p w)).answer okCode)

/-- ARP_BODY_IPV4 (43_arp_reference.md R182): (HW_W, PR_W) <- (6, 4). -/
def execArpBodyIpv4 (s : State) : Result := .next (s.answerWidths ⟨6, 4⟩)

/-- ARP_BODY_OTHER (43_arp_reference.md R182): (HW_W, PR_W) <- (6, 6); a term whose code is 0x0800 is
ill-formed and selects as ARP_BODY_IPV4. -/
def execArpBodyOther (protoFmt : Half) (s : State) : Result :=
  .next (s.answerWidths (arpWidths protoFmt))

end Sys2Proof.Machine
end

