-- ==== Sys2Proof/Machine/Classifier.lean ====
section
/-! DEFINITION. The meanings of the classifier's four rows (40_ethertype_classifier.md R140): the
classifier answers the row's class and writes no register. The answer stands in the model's own
`units.cls` (log 7); TAG_PEEK and DISPATCH, the classifier's two users (R141), leave theirs there too. -/

namespace Sys2Proof.Machine

/-- VLAN_TPID (R108): the answer is VLAN. -/
def execVlanTpid (s : State) : Result := .next (s.answerClass .vlan)

/-- ETYPE_ARP (R108): the answer is ARP. -/
def execEtypeArp (s : State) : Result := .next (s.answerClass .arp)

/-- ETYPE_IPV4 (R108): the answer is IPV4. -/
def execEtypeIpv4 (s : State) : Result := .next (s.answerClass .ipv4)

/-- ETYPE_OTHER (R108, R109): the answer is OTHER for the row's code; a term whose code an exact row
takes is ill-formed and is classified as that row. -/
def execEtypeOther (code : Half) (s : State) : Result := .next (s.answerClass (classify code))

end Sys2Proof.Machine
end

