-- ==== Sys2Proof/Machine/Commands.lean ====
section
/-! DEFINITION. The meanings of the host command words, the values a host can write to CTRL
(30_encoding.md R115). -/

namespace Sys2Proof.Machine

/-- SET_MODE (R115): MODE <- w[2:1], no START; at any time (10_state.md R41). -/
def execSetMode (mode : BitVec 2) (s : State) : Result :=
  .next (s.setCtrlMode (ParseMode.ofBits mode))

/-- START_AUTO (45_frame_fsm.md R230). -/
def execStartAuto (s : State) : Result := startCommand .auto s

/-- START_EXPECT_ARP (45_frame_fsm.md R230). -/
def execStartExpectArp (s : State) : Result := startCommand .expectArp s

/-- START_EXPECT_IPV4 (45_frame_fsm.md R230). -/
def execStartExpectIpv4 (s : State) : Result := startCommand .expectIpv4 s

/-- START_RESERVED (45_frame_fsm.md R231): MODE <- 3, the START is ignored. -/
def execStartReserved (s : State) : Result := startCommand .reserved s

end Sys2Proof.Machine
end

