-- ==== Sys2Proof/Machine/Engine.lean ====
section
/-! DEFINITION. The seven operations of the sequencer (30_encoding.md R112, 45_frame_fsm.md R249).
Each is one atomic step (20_memory.md R84). Before an operation reads the frame it checks the read
against LEN_L and takes TOO_SHORT (R74); a read past the buffer itself, which no run reaches, is a
fault (log 10). -/

namespace Sys2Proof.Machine

/-- IDLE: the engine has no enabled step; it waits for a START (45_frame_fsm.md R232, log 8). -/
def execIdle (s : State) : Result := .next s

/-- ETH_ADDR (41_ethernet_reader.md R151). -/
def execEthAddr (s : State) : Result :=
  if s.lenL.toNat < 12 then .next (s.raise .tooShort)
  else .next s.latchAddrViews

/-- TAG_PEEK (42_vlan_stack.md R162): peek, do not consume (R163). -/
def execTagPeek (s : State) : Result :=
  if s.lenL.toNat < s.off.toNat + 2 then .next (s.raise .tooShort)
  else if s.config.maxFrameLen.toNat < s.off.toNat + 2 then .fault .bufferAddress
  else
    let c := s.be16 s.off.toNat
    let s1 := (s.setCode c).answerClass (classify c)
    if classify c = .vlan then .next (s1.goto StateCode.tagRead)
    else .next (s1.goto StateCode.etypeLatch)

/-- TAG_READ (42_vlan_stack.md R164): TOO_SHORT is checked before TAG_OVERFLOW (60_exceptions.md
R276). -/
def execTagRead (s : State) : Result :=
  if s.lenL.toNat < s.off.toNat + 4 then .next (s.raise .tooShort)
  else if s.vlanInfo.count = s.config.vlanMaxDepth then .next (s.raise .tagOverflow)
  else if s.config.maxFrameLen.toNat < s.off.toNat + 4 then .fault .bufferAddress
  else .next (s.pushTag (s.be16 (s.off.toNat + 2)))

/-- ETYPE_LATCH (45_frame_fsm.md R238). -/
def execEtypeLatch (s : State) : Result := .next s.latchEtherType

/-- DISPATCH (45_frame_fsm.md R240): classify CODE, report the class, branch on the mode. MODE_L = 3
has no arm in the rule's case and is never latched (R231): a fault (log 10). -/
def execDispatch (s : State) : Result :=
  let c := classify s.code
  let s1 := (s.answerClass c).setClass c.frameClass
  match s.modeL with
  | .auto => if c = .other then .next (s1.finish okCode) else .next (s1.issue c.dsClass)
  | .expectArp => if c = .arp then .next (s1.issue .arp) else .next (s1.raise .notArp)
  | .expectIpv4 => if c = .ipv4 then .next (s1.issue .ipv4) else .next (s1.raise .notIpv4)
  | .reserved => .fault .reservedMode

/-- DS_WAIT (45_frame_fsm.md R243): while DS_ACK = 0 the engine has no step (log 8); else take the
answer, release the request, and finish or propagate the error. -/
def execDsWait (s : State) : Result :=
  if s.ds.ack then
    let r := s.ds.resp
    let s1 := s.clearRequest
    if r = okCode then .next (s1.finish okCode)
    else .next (s1.setErrDs.finish r)
  else .next s

end Sys2Proof.Machine
end

