-- ==== Sys2Proof/Machine/Ipv4Unit.lean ====
section
/-! DEFINITION. The reference downstream IPv4 unit (44_ipv4_reference.md) and its two option rows. -/

namespace Sys2Proof.Machine

/-- The checks and the option walk of IPV4_DECODE(p, r) once a header byte may be read
(44_ipv4_reference.md R200, R202, R206 to R211, R217). -/
def ipv4Body (s : State) (p r : Nat) : State :=
  let ihl := (ipIhl s p).toNat
  if ihl < 5 ∨ 15 < ihl ∨ r < 4 * ihl then s.answer ErrorKind.invalidHeaderLength.code
  else if (p + 4 * ihl - (p + 20)) % 4 ≠ 0 then s.answer ErrorKind.invalidOptions.code
  else
    let w := walkRegion s.bufByte p ihl
    let s1 := s.setWalk w
    if w.status = .invalid then s1.answer ErrorKind.invalidOptions.code
    else (s1.setIp (ipWindowOf s p w.opts) (writeSlots w.opts 0 s.ipOpt)).answer okCode

/-- IPV4_DECODE(DS_BASE, DS_LEN) (44_ipv4_reference.md R200): TOO_SHORT before any byte is read
(R201). The unit's input [P, P + R) lies in the buffer in every run (log 10). -/
def execIpv4Decode (s : State) : Result :=
  let p := s.ds.base.toNat
  let r := s.ds.len.toNat
  if r < 20 then .next (s.answer ErrorKind.tooShort.code)
  else if s.config.maxFrameLen.toNat < p + r then .fault .bufferAddress
  else .next (ipv4Body s p r)

/-- OPT_EOL (44_ipv4_reference.md R209): the walk ends, whatever the copy flag and the class. -/
def execOptEol (copy : BitVec 1) (cls : BitVec 2) (s : State) : Result :=
  .next (s.setWalk (walkTurn s.bufByte (optTypeByte copy cls 0#5) s.units.walk))

/-- OPT_TLV (44_ipv4_reference.md R208, R210): one turn of the walk on an entry at `q`: its length
byte is read and checked, the entry appended and `q` advanced, or the walk answers INVALID_OPTIONS.
The walk's region lies in the buffer in every run (log 10). -/
def execOptTlv (copy : BitVec 1) (cls : BitVec 2) (number : BitVec 5) (s : State) : Result :=
  if s.config.maxFrameLen.toNat < s.units.walk.e then .fault .bufferAddress
  else .next (s.setWalk (walkTurn s.bufByte (optTypeByte copy cls number) s.units.walk))

end Sys2Proof.Machine
end

