-- ==== Sys2Proof/Machine/Dispatch.lean ====
section
/-! DEFINITION. One arm per constructor of Instr, each one direct call of the instruction's meaning. -/

namespace Sys2Proof.Machine

def exec (i : Instr) (s : State) : Host.Outcome State Fault Refusal :=
  match i with
  | .vlanTpid => Sys2Proof.Machine.execVlanTpid s
  | .etypeArp => Sys2Proof.Machine.execEtypeArp s
  | .etypeIpv4 => Sys2Proof.Machine.execEtypeIpv4 s
  | .etypeOther code => Sys2Proof.Machine.execEtypeOther code s
  | .idle => Sys2Proof.Machine.execIdle s
  | .ethAddr => Sys2Proof.Machine.execEthAddr s
  | .tagPeek => Sys2Proof.Machine.execTagPeek s
  | .tagRead => Sys2Proof.Machine.execTagRead s
  | .etypeLatch => Sys2Proof.Machine.execEtypeLatch s
  | .dispatch => Sys2Proof.Machine.execDispatch s
  | .dsWait => Sys2Proof.Machine.execDsWait s
  | .setMode mode => Sys2Proof.Machine.execSetMode mode s
  | .startAuto => Sys2Proof.Machine.execStartAuto s
  | .startExpectArp => Sys2Proof.Machine.execStartExpectArp s
  | .startExpectIpv4 => Sys2Proof.Machine.execStartExpectIpv4 s
  | .startReserved => Sys2Proof.Machine.execStartReserved s
  | .arpDecode => Sys2Proof.Machine.execArpDecode s
  | .ipv4Decode => Sys2Proof.Machine.execIpv4Decode s
  | .arpBodyIpv4 => Sys2Proof.Machine.execArpBodyIpv4 s
  | .arpBodyOther protoFmt => Sys2Proof.Machine.execArpBodyOther protoFmt s
  | .optEol copy cls => Sys2Proof.Machine.execOptEol copy cls s
  | .optTlv copy cls number => Sys2Proof.Machine.execOptTlv copy cls number s

end Sys2Proof.Machine
end

