-- ==== Sys2Proof/Machine/HostPort.lean ====
section
/-! DEFINITION. The host's two ports: the register map (10_state.md R40 to R50, 43_arp_reference.md
R190, 44_ipv4_reference.md R215, R216) and the frame-buffer port (20_memory.md R76), and the host
program notation of 30_encoding.md R121 as lists of accesses. -/

namespace Sys2Proof.Machine

/-- The registers of the map (10_state.md R40). -/
inductive Reg where
  | ctrl
  | status
  | frameLen
  | etherType
  | payload
  | vlanInfo
  | addrViews
  | config
  | arpFmt
  | arpLenOp
  | arpSha
  | arpSpa
  | arpTha
  | arpTpa
  | ipVerIhl
  | ipIdFrag
  | ipTtlProtoCsum
  | ipSrc
  | ipDst
  | ipOptInfo
  | ipOpt (j : Nat)
  | vlanTag (i : Nat)
deriving DecidableEq, Repr

/-- The byte offset of a register (10_state.md R40). -/
def Reg.offset : Reg → Nat
  | .ctrl => 0x000
  | .status => 0x004
  | .frameLen => 0x008
  | .etherType => 0x00C
  | .payload => 0x010
  | .vlanInfo => 0x014
  | .addrViews => 0x018
  | .config => 0x01C
  | .arpFmt => 0x200
  | .arpLenOp => 0x204
  | .arpSha => 0x208
  | .arpSpa => 0x20C
  | .arpTha => 0x210
  | .arpTpa => 0x214
  | .ipVerIhl => 0x300
  | .ipIdFrag => 0x304
  | .ipTtlProtoCsum => 0x308
  | .ipSrc => 0x30C
  | .ipDst => 0x310
  | .ipOptInfo => 0x314
  | .ipOpt j => 0x340 + 4 * j
  | .vlanTag i => 0x1000 + 4 * i

/-- The register at an aligned offset, for a block with `depth` tag slots; every other offset is
unmapped (10_state.md R40, R50). -/
def regAt (depth off : Nat) : Option Reg :=
  if off = 0x000 then some .ctrl
  else if off = 0x004 then some .status
  else if off = 0x008 then some .frameLen
  else if off = 0x00C then some .etherType
  else if off = 0x010 then some .payload
  else if off = 0x014 then some .vlanInfo
  else if off = 0x018 then some .addrViews
  else if off = 0x01C then some .config
  else if off = 0x200 then some .arpFmt
  else if off = 0x204 then some .arpLenOp
  else if off = 0x208 then some .arpSha
  else if off = 0x20C then some .arpSpa
  else if off = 0x210 then some .arpTha
  else if off = 0x214 then some .arpTpa
  else if off = 0x300 then some .ipVerIhl
  else if off = 0x304 then some .ipIdFrag
  else if off = 0x308 then some .ipTtlProtoCsum
  else if off = 0x30C then some .ipSrc
  else if off = 0x310 then some .ipDst
  else if off = 0x314 then some .ipOptInfo
  else if 0x340 ≤ off ∧ off < 0x390 then some (.ipOpt ((off - 0x340) / 4))
  else if 0x1000 ≤ off ∧ off < 0x1000 + 4 * depth then some (.vlanTag ((off - 0x1000) / 4))
  else none

/-- The word of a view register, bits 31:24 reserved (43_arp_reference.md R190). -/
def View.word (v : View) : Word := 0#8 ++ v.len ++ v.off

/-- A register's current value, reserved bits 0 (20_memory.md R72). CTRL.START reads 0 (10_state.md
R41). -/
def State.readReg (s : State) : Reg → Word
  | .ctrl => 0#29 ++ s.ctrlMode.code ++ 0#1
  | .status => s.status.word
  | .frameLen => 0#16 ++ s.frameLen
  | .etherType => s.etherType.off ++ s.etherType.code
  | .payload => s.payload.len ++ s.payload.off
  | .vlanInfo => s.vlanInfo.bytes ++ s.vlanInfo.count
  | .addrViews => s.addrViews.srcLen ++ s.addrViews.srcOff ++ s.addrViews.dstLen ++ s.addrViews.dstOff
  | .config => s.config.maxFrameLen ++ s.config.vlanMaxDepth
  | .arpFmt => s.arp.protoFmt ++ s.arp.hwFmt
  | .arpLenOp => s.arp.op ++ s.arp.protoLen ++ s.arp.hwLen
  | .arpSha => s.arp.sha.word
  | .arpSpa => s.arp.spa.word
  | .arpTha => s.arp.tha.word
  | .arpTpa => s.arp.tpa.word
  | .ipVerIhl => s.ip.totalLength ++ s.ip.dscp ++ s.ip.ecn ++ s.ip.version ++ s.ip.ihl
  | .ipIdFrag => s.ip.flags ++ s.ip.fragmentOffset ++ s.ip.identification
  | .ipTtlProtoCsum => s.ip.checksum ++ s.ip.protocol ++ s.ip.ttl
  | .ipSrc => s.ip.src.word
  | .ipDst => s.ip.dst.word
  | .ipOptInfo => s.ip.optRegionOff ++ s.ip.optRegionLen ++ s.ip.optCount
  | .ipOpt j => arrayRead s.ipOpt j
  | .vlanTag i => 0#16 ++ arrayRead s.vlanTag i

/-- A read of an aligned offset: the register's value, or 0 where nothing is mapped (10_state.md
R50). -/
def State.readOffset (s : State) (off : Nat) : Word :=
  match regAt s.config.vlanMaxDepth.toNat off with
  | some r => s.readReg r
  | none => 0#32

/-- An aligned 32-bit register write: CTRL is decoded as a command word and run (30_encoding.md R115);
FRAME_LEN takes bits 15:0 (10_state.md R43); every other register is read-only and every other offset
unmapped, so the write is ignored (R42, R44 to R50). -/
def writeOffset (off : Nat) (v : Word) (s : State) : Result :=
  match regAt s.config.vlanMaxDepth.toNat off with
  | some .ctrl => exec (decodeCtrl v) s
  | some .frameLen => .next (s.setFrameLen (v.extractLsb' 0 16))
  | _ => .next s

/-- The only register access is a 32-bit access at a multiple of 4 (20_memory.md R73). -/
def accessFormOk (off : Nat) (width : AccessWidth) : Bool := width = .word && off % 4 = 0

/-- One host access (20_memory.md R72, R73, R76, R86). -/
def hostAccess (a : HostAccess) (s : State) : Result :=
  match a with
  | .regRead off width =>
    if accessFormOk off width then .next (s.setReply (.word (s.readOffset off)))
    else .refused .registerAccessForm
  | .regWrite off width value =>
    if accessFormOk off width then writeOffset off value s
    else .refused .registerAccessForm
  | .bufRead addr =>
    if addr < s.config.maxFrameLen.toNat then .next (s.setReply (.byte (s.bufByte addr)))
    else .refused .bufferRange
  | .bufWrite addr value =>
    if addr < s.config.maxFrameLen.toNat then
      if s.status.busy then .refused .bufferBusy
      else .next (s.bufWrite addr value)
    else .refused .bufferRange

/-! ### Host program notation (30_encoding.md R121) -/

/-- `wreg NAME, v`. -/
def wreg (r : Reg) (v : Word) : Move := .host (.regWrite r.offset .word v)

/-- `rreg NAME`. -/
def rreg (r : Reg) : Move := .host (.regRead r.offset .word)

/-- `wbuf a: b0 b1 ... bn`. -/
def wbuf : Nat → List Byte → List Move
  | _, [] => []
  | a, b :: bs => .host (.bufWrite a b) :: wbuf (a + 1) bs

/-- `rbuf a, n`. -/
def rbuf : Nat → Nat → List Move
  | _, 0 => []
  | a, n + 1 => .host (.bufRead a) :: rbuf (a + 1) n

/-- `load L: b0 ... b(L−1)`. -/
def load (bytes : List Byte) : List Move :=
  wbuf 0 bytes ++ [wreg .frameLen (BitVec.ofNat 32 bytes.length)]

/-- `start MODE` writes (MODE << 1) | 1 to CTRL. -/
def start (m : ParseMode) : Move := wreg .ctrl (m.code.setWidth 32 <<< 1 ||| 1#32)

end Sys2Proof.Machine
end

