-- ==== Sys2Proof/Machine/Agents.lean ====
section
/-! DEFINITION. The agents' steps (10_state.md R30, 20_memory.md R84): the engine, the downstream unit,
the EXTERNAL unit's draw, and which agent runs when no step of the order is given (log 1). -/

namespace Sys2Proof.Machine

/-- The engine has an enabled step: outside IDLE (45_frame_fsm.md R232), and in DS_WAIT only while
DS_ACK = 1 (R243). -/
def State.engineEnabled (s : State) : Bool :=
  s.state != StateCode.idle && (s.state != StateCode.dsWait || s.ds.ack)

/-- The downstream unit's decode step is enabled: DS_REQ = 1 and DS_ACK = 0 (45_frame_fsm.md R246). -/
def State.requestOpen (s : State) : Bool := s.ds.req && !s.ds.ack

/-- The reference unit has an enabled step (45_frame_fsm.md R246, R247). -/
def State.referenceEnabled (s : State) : Bool :=
  decide (s.dsUnit = .reference) && s.requestOpen

/-- The bit DS_CLASS presents (30_encoding.md R117). -/
def DsClass.bit : DsClass → BitVec 1
  | .arp => 0#1
  | .ipv4 => 1#1

/-- The engine's step: decode STATE and perform the operation (30_encoding.md R112). -/
def engineStep (s : State) : Result :=
  match decodeState s.state with
  | .ok i => exec i s
  | .reject _ => .fault .reservedState

/-- The reference unit's step: decode DS_CLASS and perform the decode, when it is enabled
(45_frame_fsm.md R246); else the unit has no step (log 8). -/
def downstreamStep (s : State) : Result :=
  if s.referenceEnabled then exec (decodeDsClass s.ds.cls.bit) s
  else .next s

/-- What an EXTERNAL unit writes to the option slots below `limit`, of its draws in their order. -/
def externalSlots (limit : Nat) : List (Nat × Word) → List (Nat × Word) → List (Nat × Word)
  | [], f => f
  | (j, v) :: rest, f =>
    externalSlots limit rest (if j < limit then arrayWrite f j v else f)

/-- The slots an IPv4 window counts: 0 to OPT_COUNT − 1, of the twenty that exist
(44_ipv4_reference.md R216, R217). -/
def IpWindow.slotCount (w : IpWindow) : Nat := min Config.optionSlots w.optCount.toNat

/-- What an EXTERNAL unit writes with the answer OK: its own result window, which is that of the
request's class (45_frame_fsm.md R247, 93_implementation_defined.md row 26), as it draws it; for IPv4
also the slots that the window counts, and the others keep their values (44_ipv4_reference.md R217,
log 6). -/
def State.writeDrawn (s : State) (x : ExternalAnswer) : State :=
  match s.ds.cls with
  | .arp => s.setArp (x.arp.getD s.arp)
  | .ipv4 => s.setIp (x.ip.getD s.ip) (externalSlots (x.ip.getD s.ip).slotCount x.slots s.ipOpt)

/-- An EXTERNAL unit's decode step (45_frame_fsm.md R247): with the answer OK its result window as it
draws it; with an error 1 to 3 the answer alone, and every window stays (60_exceptions.md R277's table,
93_implementation_defined.md rows 26 and 28, log 17); any other answer is refused. With the reference
units attached, or no open request, there is no such step (log 8). -/
def externalStep (x : ExternalAnswer) (s : State) : Result :=
  if decide (s.dsUnit = .external) && s.requestOpen then
    if 3 < x.resp.toNat then .refused .externalAnswer
    else if x.resp = okCode then .next ((s.writeDrawn x).answer okCode)
    else .next (s.answer x.resp)
  else .next s

/-- With no step of the order given, the block's own agents run: the engine if it is enabled, else the
reference unit if it is, else nothing happens (log 1). The two are never enabled together in a run. -/
def autoStep (s : State) : Result :=
  if s.engineEnabled then engineStep s
  else downstreamStep s

/-- One given step of the order. -/
def runMove (m : Move) (s : State) : Result :=
  match m with
  | .host a => hostAccess a s
  | .engine => engineStep s
  | .downstream => downstreamStep s
  | .external x => externalStep x s
  | .reset => .next s.takeReset
  | .classify c => exec (decodeEtherType c) s
  | .selectWidths f => exec (decodeArpProto f) s
  | .optionByte t => exec (decodeOptType t) s

/-- The instruction a host access presents: a 32-bit write to CTRL is a command word (30_encoding.md
R115); no other access is an instruction. -/
def HostAccess.instr? : HostAccess → Option Instr
  | .regRead _ _ => none
  | .regWrite off width value =>
    if width = .word ∧ off = Reg.ctrl.offset then some (decodeCtrl value) else none
  | .bufRead _ => none
  | .bufWrite _ _ => none

/-- The instruction the next step runs, decoded from the word its agent presents; none where the next
step is no instruction of the table (a plain host access, reset, a disabled or external unit). -/
def State.fetched? (s : State) : Option Instr :=
  match s.moves with
  | [] =>
    if s.engineEnabled then (decodeState s.state).instr?
    else if s.referenceEnabled then some (decodeDsClass s.ds.cls.bit)
    else none
  | .host a :: _ => a.instr?
  | .engine :: _ => (decodeState s.state).instr?
  | .downstream :: _ => if s.referenceEnabled then some (decodeDsClass s.ds.cls.bit) else none
  | .external _ :: _ => none
  | .reset :: _ => none
  | .classify c :: _ => some (decodeEtherType c)
  | .selectWidths f :: _ => some (decodeArpProto f)
  | .optionByte t :: _ => some (decodeOptType t)

/-- The state whose next step presents the word `w` of a space to its decoder (log 2, log 3). -/
def placeWord (sp : Space) (w : Word) (s : State) : State :=
  match sp with
  | .etherType => s.setMoves (.classify (w.setWidth 16) :: s.moves)
  | .stateCode => (s.goto (w.setWidth 4)).setMoves (.engine :: s.moves)
  | .ctrlWord => s.setMoves (wreg .ctrl w :: s.moves)
  | .dsClass =>
    { s with
      ds := { s.ds with
        req := true
        ack := false
        cls := if w.setWidth 1 = 0#1 then .arp else .ipv4 }
      dsUnit := .reference
      moves := .downstream :: s.moves }
  | .arpProto => s.setMoves (.selectWidths (w.setWidth 16) :: s.moves)
  | .optType => s.setMoves (.optionByte (w.setWidth 8) :: s.moves)

end Sys2Proof.Machine
end

