-- ==== Sys2Proof/Machine/Step.lean ====
section
/-! DEFINITION. One step of the total order of 20_memory.md R84: the next given move, or, with none
given, the block's own enabled agent. And where a bare table word is placed so that the next step
runs it. -/

namespace Sys2Proof.Machine

/-- One step. -/
def step (s : State) : Host.Outcome State Fault Refusal :=
  match s.moves with
  | [] => autoStep s
  | m :: rest => runMove m (s.setMoves rest)

/-- `s` with a bare table word presented to the decoder that `decodeTableWord` reads it with, as the
very next step (log 2, log 3); a word no decoder reads is placed nowhere. -/
def State.withFetchWord (s : State) (nbits w : Nat) : State :=
  match tableSpace nbits w with
  | none => s
  | some sp => placeWord sp (BitVec.ofNat 32 w) s

end Sys2Proof.Machine
end

