-- ==== Sys2Proof/Safety.lean ====
section
/-! DEFINITION. What counts as a sound state and a safe run, in the terms the statements use. -/

namespace Sys2Proof.Machine

/-- The states every step of every run keeps: the parameters legal, the stores canonical, and the
relations between the registers that the rules derive at each STATE code. -/
structure State.Inv (s : State) : Prop where
  /-- The parameters are legal (00_scope.md R8, R9). -/
  params : Config.minFrameLen ≤ s.config.maxFrameLen.toNat ∧ 1 ≤ s.config.vlanMaxDepth.toNat
  /-- The frame buffer is canonical and lists only addresses that exist (20_memory.md R70). -/
  buffer : Memory.wf s.frameBuf ∧ ∀ c ∈ s.frameBuf, c.1 < s.config.maxFrameLen.toNat
  /-- The tag accumulator is canonical and has VLAN_MAX_DEPTH slots (10_state.md R49). -/
  tags : ArrayWf s.vlanTag ∧ ∀ c ∈ s.vlanTag, c.1 < s.config.vlanMaxDepth.toNat
  /-- The option slots are canonical and twenty (44_ipv4_reference.md R216). -/
  slots : ArrayWf s.ipOpt ∧ ∀ c ∈ s.ipOpt, c.1 < Config.optionSlots
  /-- STATE holds one of the seven codes (10_state.md R31). -/
  stateCode : s.state.toNat ≤ 6
  /-- BUSY = 1 exactly when STATE ≠ IDLE (45_frame_fsm.md R231). -/
  busyIff : s.status.busy = true ↔ s.state ≠ StateCode.idle
  /-- BUSY and DONE are never both 1 (10_state.md R42). -/
  busyDone : ¬(s.status.busy = true ∧ s.status.done = true)
  /-- The reserved mode is never latched (45_frame_fsm.md R231). -/
  mode : s.modeL ≠ .reserved
  /-- The frame lies in the buffer (20_memory.md R87). -/
  frame : s.lenL.toNat ≤ s.config.maxFrameLen.toNat
  /-- OFF never exceeds LEN_L (10_state.md R32). -/
  cursor : s.off.toNat ≤ s.lenL.toNat
  /-- VLAN_BYTES is four times VLAN_COUNT, which the slots bound (10_state.md R46). -/
  vlan : s.vlanInfo.bytes.toNat = 4 * s.vlanInfo.count.toNat ∧
    s.vlanInfo.count.toNat ≤ s.config.vlanMaxDepth.toNat
  /-- ERR_CODE 7 to 15 are never produced (60_exceptions.md R270). -/
  errCode : s.status.errCode.toNat ≤ 6
  /-- A request is open exactly in DS_WAIT (45_frame_fsm.md R240, R243). -/
  request : s.ds.req = true ↔ s.state = StateCode.dsWait
  /-- An answer stands only on an open request (45_frame_fsm.md R246). -/
  ack : s.ds.ack = true → s.ds.req = true
  /-- DS_RESP is 0 to 3 (45_frame_fsm.md R247). -/
  resp : s.ds.resp.toNat ≤ 3
  /-- At ETH_ADDR nothing is consumed and no result is written (45_frame_fsm.md R230). -/
  atEthAddr : s.state = StateCode.ethAddr →
    s.off = 0#16 ∧ s.vlanInfo = ⟨0#16, 0#16⟩ ∧ s.addrViews = ⟨0#8, 0#8, 0#8, 0#8⟩
  /-- At TAG_PEEK the cursor is past the addresses and the tags (42_vlan_stack.md R160). -/
  atTagPeek : s.state = StateCode.tagPeek → s.off.toNat = 12 + 4 * s.vlanInfo.count.toNat
  /-- At TAG_READ the code at the cursor is the tag code (42_vlan_stack.md R164). -/
  atTagRead : s.state = StateCode.tagRead →
    s.off.toNat = 12 + 4 * s.vlanInfo.count.toNat ∧ s.code = 0x8100#16
  /-- At ETYPE_LATCH the code is no tag code and lies in the frame (45_frame_fsm.md R238). -/
  atEtypeLatch : s.state = StateCode.etypeLatch →
    s.off.toNat = 12 + 4 * s.vlanInfo.count.toNat ∧ classify s.code ≠ .vlan ∧
      s.off.toNat + 2 ≤ s.lenL.toNat
  /-- From DISPATCH on, the offsets of 45_frame_fsm.md R251. -/
  atDispatch : s.state = StateCode.dispatch ∨ s.state = StateCode.dsWait →
    s.etherType.code = s.code ∧ classify s.code ≠ .vlan ∧
      s.etherType.off.toNat = 12 + 4 * s.vlanInfo.count.toNat ∧
      s.payload.off.toNat = s.etherType.off.toNat + 2 ∧ s.off = s.payload.off ∧
      s.payload.off.toNat + s.payload.len.toNat = s.lenL.toNat
  /-- Between ETH_ADDR and the end of the parse the address views stand (41_ethernet_reader.md R151). -/
  views : s.state ≠ StateCode.idle → s.state ≠ StateCode.ethAddr →
    s.addrViews = ⟨0#8, 6#8, 6#8, 6#8⟩
  /-- Before ETYPE_LATCH neither ETHERTYPE nor PAYLOAD is written (60_exceptions.md R277). -/
  unlatched : s.state = StateCode.ethAddr ∨ s.state = StateCode.tagPeek ∨
      s.state = StateCode.tagRead ∨ s.state = StateCode.etypeLatch →
    s.etherType = ⟨0#16, 0#16⟩ ∧ s.payload = ⟨0#16, 0#16⟩
  /-- In DS_WAIT the hand-off registers name the payload and its class (45_frame_fsm.md R240). -/
  atDsWait : s.state = StateCode.dsWait →
    s.ds.base = s.payload.off ∧ s.ds.len = s.payload.len ∧
      (classify s.code = .arp ∧ s.ds.cls = .arp ∨ classify s.code = .ipv4 ∧ s.ds.cls = .ipv4)
  /-- MODEL: the option walk's region lies in the buffer (log 7, log 10). -/
  walk : s.units.walk.e ≤ s.config.maxFrameLen.toNat

/-- The outcomes a parse can end in, and what STATUS holds on the way (60_exceptions.md R271, R277,
45_frame_fsm.md R250). -/
structure State.OutcomeOk (s : State) : Prop where
  /-- While a parse runs STATUS reports no error. -/
  running : s.status.busy = true → s.status.errCode = okCode ∧ s.status.errDs = false
  /-- Before DISPATCH the class is NONE. -/
  unclassified : s.status.busy = true → s.state ≠ StateCode.dsWait →
    s.status.cls = .unclassified
  /-- In DS_WAIT the class is the one handed off, in a mode that hands it off. -/
  handedOff : s.state = StateCode.dsWait →
    s.status.cls = .arp ∧ s.ds.cls = .arp ∧ s.modeL ≠ .expectIpv4 ∨
    s.status.cls = .ipv4 ∧ s.ds.cls = .ipv4 ∧ s.modeL ≠ .expectArp
  /-- A parse that ends without error is classified, and UNKNOWN only in mode AUTO. -/
  success : s.status.done = true → s.status.errCode = okCode →
    s.status.errDs = false ∧ s.status.cls ≠ .unclassified ∧
      (s.status.cls = .unknown → s.modeL = .auto) ∧
      (s.status.cls = .arp → s.modeL ≠ .expectIpv4) ∧
      (s.status.cls = .ipv4 → s.modeL ≠ .expectArp)
  /-- A downstream error has one of the three downstream codes and a handed-off class; codes 2 and 3
  come from the IPv4 class or an EXTERNAL unit. -/
  downstreamError : s.status.errDs = true →
    (s.status.errCode = ErrorKind.tooShort.code ∨
      s.status.errCode = ErrorKind.invalidHeaderLength.code ∨
      s.status.errCode = ErrorKind.invalidOptions.code) ∧
    (s.status.cls = .arp ∨ s.status.cls = .ipv4)
  /-- An engine error has one of the four engine codes: a truncated or overfull frame is not yet
  classified, a mismatch is, with the class that was found. -/
  engineError : s.status.done = true → s.status.errCode ≠ okCode → s.status.errDs = false →
    (s.status.errCode = ErrorKind.tooShort.code ∨ s.status.errCode = ErrorKind.tagOverflow.code) ∧
      s.status.cls = .unclassified ∨
    s.status.errCode = ErrorKind.notArp.code ∧ s.modeL = .expectArp ∧
      s.status.cls ≠ .unclassified ∧ s.status.cls ≠ .arp ∨
    s.status.errCode = ErrorKind.notIpv4.code ∧ s.modeL = .expectIpv4 ∧
      s.status.cls ≠ .unclassified ∧ s.status.cls ≠ .ipv4

/-- The same state with another frame buffer, listed bytes and draws, and everything else as it is. -/
def State.withBuffer (s : State) (m : Memory) (epoch : Nat) : State :=
  { s with frameBuf := m, bufEpoch := epoch }

/-- A parse is over: not busy, done. -/
def State.Completed (s : State) : Prop :=
  s.state = StateCode.idle ∧ s.status.busy = false ∧ s.status.done = true

/-- A well-formed option list of a region, written from the rules and not from the walk:
`OptionList rd q e opts` says that the bytes from `q` to `e` decode to `opts`
(44_ipv4_reference.md R208, R209; 30_encoding.md R114). -/
inductive OptionList (rd : Nat → Byte) (e : Nat) : Nat → List OptEntry → Prop where
  /-- The region's end, with no EOL. -/
  | atEnd {q : Nat} : e ≤ q → OptionList rd e q []
  /-- EOL: the option number is 0, whatever bits 7:5 are. -/
  | eol {q : Nat} : q < e → (rd q).extractLsb' 0 5 = 0#5 → OptionList rd e q []
  /-- An entry whose length covers its header and lies in the region, and the list after it. -/
  | entry {q : Nat} {rest : List OptEntry} : q < e → (rd q).extractLsb' 0 5 ≠ 0#5 →
      2 ≤ (rd (q + 1)).toNat → q + (rd (q + 1)).toNat ≤ e →
      OptionList rd e (q + (rd (q + 1)).toNat) rest →
      OptionList rd e q (⟨(rd q).extractLsb' 7 1, (rd q).extractLsb' 5 2, (rd q).extractLsb' 0 5,
        rd (q + 1), half (q + 2)⟩ :: rest)

/-- The frame's VLAN tags: exactly `k` of them, with an EtherType behind them inside the frame
(30_encoding.md R103, R104). -/
def State.TagStack (s : State) (len k : Nat) : Prop :=
  12 + 4 * k + 2 ≤ len ∧ (∀ j, j < k → s.be16 (12 + 4 * j) = 0x8100#16) ∧
    s.be16 (12 + 4 * k) ≠ 0x8100#16

end Sys2Proof.Machine
end

