-- ==== Sys2Proof/Certificates/Slice0/Obligations.lean ====
section
/-! DEFINITION. The statements for the provers. OBLIGATIONS.json gives each one's rules of spec/. The
model's own fields (`units`, `reply`, `moves`, `bufEpoch`; log 1, log 4, log 7, log 11) are named
where a step changes them, so that an equation of states is the instruction's whole frame. -/

open Sys2Proof
open Sys2Proof.Machine

/-! ### Encoding -/

/-- Words written out from the encoding tables decode to the instructions they stand for (R108, R111,
R112, R114, R115, R117). -/
def Obligations.SpecWordsDecode : Prop :=
  decodeIn .etherType 0x8100#32 = .ok .vlanTpid ∧
  decodeIn .etherType 0x0806#32 = .ok .etypeArp ∧
  decodeIn .etherType 0x88A8#32 = .ok (.etypeOther 0x88A8#16) ∧
  decodeIn .stateCode 0x2#32 = .ok .tagPeek ∧
  decodeIn .stateCode 0x6#32 = .ok .dsWait ∧
  decodeIn .ctrlWord 0xFFFFFFF9#32 = .ok .startAuto ∧
  decodeIn .ctrlWord 0x4#32 = .ok (.setMode 2#2) ∧
  decodeIn .dsClass 0x1#32 = .ok .ipv4Decode ∧
  decodeIn .arpProto 0x86DD#32 = .ok (.arpBodyOther 0x86DD#16) ∧
  decodeIn .optType 0x86#32 = .ok (.optTlv 1#1 0#2 6#5) ∧
  decodeIn .optType 0xE0#32 = .ok (.optEol 1#1 3#2)

/-- Decoding the word of a well-formed instruction, in its code space, gives the instruction back, at
every operand value. -/
def Obligations.DecodeOfEncode : Prop :=
  ∀ i : Instr, i.wf = true → decodeIn i.space (encode i) = .ok i

/-- A word that decodes decodes to a well-formed instruction of its space, whose word it is, up to the
ignored bits 31:3 of a CTRL word: no two words with different live bits share an instruction. -/
def Obligations.EncodeOfDecode : Prop :=
  ∀ (sp : Space) (w : Word) (i : Instr), decodeIn sp w = .ok i →
    i.wf = true ∧ i.space = sp ∧ encode i = w &&& sp.liveBits

/-- The stops of log 10, in states that no run reaches (SoundStatesNeverFault): a STATE code 0x7 to
0xF is rejected by name and has no operation; DISPATCH has no arm for the reserved mode; and a frame
read past the buffer, which the length check of R87 keeps out of every run, is a fault. -/
def Obligations.UnreachableStatesStop : Prop :=
  (∀ c : BitVec 4, 6 < c.toNat ↔ decodeState c = .reject (.reservedState c)) ∧
  (∀ s : State, s.moves = [] → 6 < s.state.toNat → step s = .fault .reservedState) ∧
  (∀ s : State, s.modeL = .reserved → exec .dispatch s = .fault .reservedMode) ∧
  (∀ s : State, s.off.toNat + 2 ≤ s.lenL.toNat → s.config.maxFrameLen.toNat < s.off.toNat + 2 →
    exec .tagPeek s = .fault .bufferAddress) ∧
  (∀ s : State, s.off.toNat + 4 ≤ s.lenL.toNat → s.vlanInfo.count ≠ s.config.vlanMaxDepth →
    s.config.maxFrameLen.toNat < s.off.toNat + 4 → exec .tagRead s = .fault .bufferAddress) ∧
  (∀ s : State, s.config.maxFrameLen.toNat < s.ds.base.toNat + s.ds.len.toNat →
    (8 ≤ s.ds.len.toNat → exec .arpDecode s = .fault .bufferAddress) ∧
    (20 ≤ s.ds.len.toNat → exec .ipv4Decode s = .fault .bufferAddress)) ∧
  (∀ (s : State) (copy : BitVec 1) (cls : BitVec 2) (number : BitVec 5),
    s.config.maxFrameLen.toNat < s.units.walk.e →
    exec (.optTlv copy cls number) s = .fault .bufferAddress)

/-! ### The step -/

/-- What a step runs. Where the next step presents a word that decodes to an instruction, it is exec of
it on the state whose pending move is taken off; a given host access runs on its port, an EXTERNAL
answer as that unit's step, and reset is taken. A downstream unit given a step while it has none, and a
block with nothing given and nothing enabled, stay as they are (log 8). The list of moves, and which
agent runs when it is empty, are log 1's choice; the moves that present a word to the classifier, the
width selection or the option walk are log 7's. -/
def Obligations.StepRunsDecodedInstruction : Prop :=
  (∀ (s : State) (i : Instr), s.fetched? = some i → step s = exec i (s.setMoves s.moves.tail)) ∧
  (∀ (s : State) (a : HostAccess) (rest : List Move), s.moves = .host a :: rest →
    step s = hostAccess a (s.setMoves rest)) ∧
  (∀ (s : State) (x : ExternalAnswer) (rest : List Move), s.moves = .external x :: rest →
    step s = externalStep x (s.setMoves rest)) ∧
  (∀ (s : State) (rest : List Move), s.moves = .reset :: rest →
    step s = .next (s.setMoves rest).takeReset) ∧
  (∀ (s : State) (rest : List Move), s.moves = .downstream :: rest → s.referenceEnabled = false →
    step s = .next (s.setMoves rest)) ∧
  (∀ s : State, s.moves = [] → s.engineEnabled = false → s.referenceEnabled = false →
    step s = .next s)

/-- A table word placed for the next step is what the next step decodes, and it takes one move
(log 2, log 3). -/
def Obligations.PlacedWordIsFetched : Prop :=
  ∀ (s : State) (nbits w : Nat) (i : Instr), decodeTableWord nbits w = some i →
    (s.withFetchWord nbits w).fetched? = some i ∧
    (s.withFetchWord nbits w).moves.tail = s.moves ∧
    (s.withFetchWord nbits w).frameBuf = s.frameBuf

/-! ### The classifier -/

/-- The classifier's rows answer their class and write no register (R140); `units.cls` is the model's
own place for the answer (log 7). -/
def Obligations.ClassifierRowsAnswer : Prop :=
  ∀ s : State,
    exec .vlanTpid s = .next { s with units := { s.units with cls := .vlan } } ∧
    exec .etypeArp s = .next { s with units := { s.units with cls := .arp } } ∧
    exec .etypeIpv4 s = .next { s with units := { s.units with cls := .ipv4 } } ∧
    (∀ c : Half, c ≠ 0x8100#16 → c ≠ 0x0806#16 → c ≠ 0x0800#16 →
      exec (.etypeOther c) s = .next { s with units := { s.units with cls := .other } }) ∧
    (∀ c : Half, exec (decodeEtherType c) s =
      .next { s with units := { s.units with
        cls := if c = 0x8100#16 then .vlan else if c = 0x0806#16 then .arp
          else if c = 0x0800#16 then .ipv4 else .other } })

/-! ### The engine's operations -/

/-- IDLE (R232): the engine has no enabled step, only an accepted START leaves it, and reset and every
completion lead to it. -/
def Obligations.IdleWaitsForStart : Prop :=
  (∀ s : State, s.state = 0x0#4 → s.engineEnabled = false) ∧
  (∀ s t : State, s.state = 0x0#4 → step s = .next t → t.state ≠ 0x0#4 →
    ∃ (v : Word) (rest : List Move), s.moves = .host (.regWrite 0x000 .word v) :: rest ∧
      v.extractLsb' 0 1 = 1#1 ∧ v.extractLsb' 1 2 ≠ 3#2) ∧
  (∀ s : State, s.takeReset.state = 0x0#4) ∧
  (∀ (s : State) (e : BitVec 4), (s.finish e).state = 0x0#4)

/-- ETH_ADDR (R151); the error completes the parse as finish does (R244): ERR_CODE, BUSY, DONE and STATE
and nothing else. -/
def Obligations.EthAddrLatchesViews : Prop :=
  ∀ s : State,
    (s.lenL.toNat < 12 → exec .ethAddr s = .next
      { s with status := ⟨false, true, s.status.cls, 1#4, s.status.errDs⟩, state := 0x0#4 }) ∧
    (12 ≤ s.lenL.toNat → exec .ethAddr s = .next
      { s with addrViews := ⟨0#8, 6#8, 6#8, 6#8⟩, off := 12#16, state := 0x2#4 })

/-- TAG_PEEK (R162, R163), for a frame that lies in the buffer (R87): OFF is not written. -/
def Obligations.TagPeekReadsCode : Prop :=
  ∀ s : State, s.lenL.toNat ≤ s.config.maxFrameLen.toNat →
    (s.lenL.toNat < s.off.toNat + 2 → exec .tagPeek s = .next
      { s with status := ⟨false, true, s.status.cls, 1#4, s.status.errDs⟩, state := 0x0#4 }) ∧
    (s.off.toNat + 2 ≤ s.lenL.toNat →
      ∃ t : State, exec .tagPeek s = .next t ∧
        t = { s with
          code := s.be16 s.off.toNat
          state := if s.be16 s.off.toNat = 0x8100#16 then 0x3#4 else 0x4#4
          units := t.units })

/-- TAG_READ (R164), for a frame that lies in the buffer (R87): TOO_SHORT first, then TAG_OVERFLOW,
else slot n takes the tag control field, the other slots keep theirs, and the counters and the cursor
move. The sums are the rule's on natural numbers. -/
def Obligations.TagReadAppendsTag : Prop :=
  ∀ s : State, s.lenL.toNat ≤ s.config.maxFrameLen.toNat →
    (s.lenL.toNat < s.off.toNat + 4 → exec .tagRead s = .next
      { s with status := ⟨false, true, s.status.cls, 1#4, s.status.errDs⟩, state := 0x0#4 }) ∧
    (s.off.toNat + 4 ≤ s.lenL.toNat → s.vlanInfo.count = s.config.vlanMaxDepth →
      exec .tagRead s = .next
        { s with status := ⟨false, true, s.status.cls, 6#4, s.status.errDs⟩, state := 0x0#4 }) ∧
    (s.off.toNat + 4 ≤ s.lenL.toNat → s.vlanInfo.count ≠ s.config.vlanMaxDepth →
      4 * (s.vlanInfo.count.toNat + 1) < 65536 →
      ∃ t : State, exec .tagRead s = .next t ∧
        t = { s with vlanTag := t.vlanTag, vlanInfo := t.vlanInfo, off := t.off, state := 0x2#4 } ∧
        arrayRead t.vlanTag s.vlanInfo.count.toNat = s.be16 (s.off.toNat + 2) ∧
        (∀ j, j ≠ s.vlanInfo.count.toNat → arrayRead t.vlanTag j = arrayRead s.vlanTag j) ∧
        t.vlanInfo.count.toNat = s.vlanInfo.count.toNat + 1 ∧
        t.vlanInfo.bytes.toNat = 4 * (s.vlanInfo.count.toNat + 1) ∧
        t.off.toNat = s.off.toNat + 4)

/-- ETYPE_LATCH (R238), under its entry condition OFF + 2 ≤ LEN_L; the sums are the rule's on natural
numbers. -/
def Obligations.EtypeLatchWritesPayloadView : Prop :=
  ∀ s : State, s.off.toNat + 2 ≤ s.lenL.toNat →
    ∃ t : State, exec .etypeLatch s = .next t ∧
      t = { s with
        etherType := ⟨s.code, s.off⟩, off := t.off, payload := t.payload, state := 0x5#4 } ∧
      t.off.toNat = s.off.toNat + 2 ∧ t.payload.off.toNat = s.off.toNat + 2 ∧
      t.payload.len.toNat = s.lenL.toNat - (s.off.toNat + 2)

/-- DISPATCH (R240), under its entry condition that CODE is no tag code, in each mode the rule's case
has: STATUS.CLASS in every case, and the fields finish writes or those ds_issue writes. -/
def Obligations.DispatchBranches : Prop :=
  ∀ (s : State) (cls : FrameClass), s.code ≠ 0x8100#16 →
    cls = (if s.code = 0x0806#16 then .arp else if s.code = 0x0800#16 then .ipv4 else .unknown) →
    s.modeL ≠ .reserved →
    ∃ t : State, exec .dispatch s = .next t ∧
      t = { s with status := t.status, state := t.state, ds := t.ds, units := t.units } ∧
      (s.modeL = .auto → s.code ≠ 0x0806#16 → s.code ≠ 0x0800#16 →
        t.status = ⟨false, true, cls, 0#4, s.status.errDs⟩ ∧ t.state = 0x0#4 ∧ t.ds = s.ds) ∧
      (s.modeL = .auto ∨ s.modeL = .expectArp → s.code = 0x0806#16 →
        t.status = { s.status with cls := cls } ∧ t.state = 0x6#4 ∧
        t.ds = ⟨true, .arp, s.payload.off, s.payload.len, false, s.ds.resp⟩) ∧
      (s.modeL = .auto ∨ s.modeL = .expectIpv4 → s.code = 0x0800#16 →
        t.status = { s.status with cls := cls } ∧ t.state = 0x6#4 ∧
        t.ds = ⟨true, .ipv4, s.payload.off, s.payload.len, false, s.ds.resp⟩) ∧
      (s.modeL = .expectArp → s.code ≠ 0x0806#16 →
        t.status = ⟨false, true, cls, 4#4, s.status.errDs⟩ ∧ t.state = 0x0#4 ∧ t.ds = s.ds) ∧
      (s.modeL = .expectIpv4 → s.code ≠ 0x0800#16 →
        t.status = ⟨false, true, cls, 5#4, s.status.errDs⟩ ∧ t.state = 0x0#4 ∧ t.ds = s.ds)

/-- DS_WAIT (R243): not enabled while DS_ACK = 0; else the request is released and the answer becomes
the outcome, an error with ERR_DS = 1, and CLASS stays. -/
def Obligations.DsWaitPropagatesAnswer : Prop :=
  ∀ s : State,
    (s.state = 0x6#4 → (s.engineEnabled = true ↔ s.ds.ack = true)) ∧
    (s.ds.ack = true → s.ds.resp = 0#4 → exec .dsWait s = .next
      { s with
        ds := { s.ds with req := false, ack := false }
        status := ⟨false, true, s.status.cls, 0#4, s.status.errDs⟩
        state := 0x0#4 }) ∧
    (s.ds.ack = true → s.ds.resp ≠ 0#4 → exec .dsWait s = .next
      { s with
        ds := { s.ds with req := false, ack := false }
        status := ⟨false, true, s.status.cls, s.ds.resp, true⟩
        state := 0x0#4 })

/-- Errors are precise (R277): an engine operation that ends the parse with an error writes STATUS,
STATE and, in DS_WAIT, the request it releases; every result register keeps what the operations before
it wrote. -/
def Obligations.EngineErrorsArePrecise : Prop :=
  ∀ (i : Instr) (s t : State), i.space = .stateCode → s.status.done = false →
    exec i s = .next t → t.status.done = true → t.status.errCode ≠ 0#4 →
    t = { s with
      status := t.status, state := 0x0#4, units := t.units
      ds := { s.ds with req := t.ds.req, ack := t.ds.ack } } ∧
    t.status.busy = false ∧
    (i ≠ .dispatch → t.status.cls = s.status.cls) ∧
    (i ≠ .dsWait → t.ds = s.ds ∧ t.status.errDs = s.status.errDs) ∧
    (i = .dsWait → t.status.errDs = true ∧ t.status.errCode = s.ds.resp)

/-! ### The host's commands -/

/-- START (R230). In IDLE it latches the inputs, clears the cursor and the result registers, sets BUSY
and starts at ETH_ADDR; nothing else is written, VLAN_TAG[] and the windows included; with a length that
does not fit the buffer it is refused (R87). While a parse runs, and always with the reserved mode, it
changes CTRL.MODE and nothing else. -/
def Obligations.StartBeginsParseOrIsIgnored : Prop :=
  (∀ (s : State) (i : Instr) (m : ParseMode),
    i = .startAuto ∧ m = .auto ∨ i = .startExpectArp ∧ m = .expectArp ∨
      i = .startExpectIpv4 ∧ m = .expectIpv4 →
    (s.state = 0x0#4 → s.frameLen.toNat ≤ s.config.maxFrameLen.toNat → exec i s = .next
      { s with
        ctrlMode := m, lenL := s.frameLen, modeL := m, off := 0#16, code := 0#16
        status := ⟨true, false, .unclassified, 0#4, false⟩
        etherType := ⟨0#16, 0#16⟩, payload := ⟨0#16, 0#16⟩, vlanInfo := ⟨0#16, 0#16⟩
        addrViews := ⟨0#8, 0#8, 0#8, 0#8⟩, state := 0x1#4 }) ∧
    (s.state = 0x0#4 → s.config.maxFrameLen.toNat < s.frameLen.toNat →
      exec i s = .refused .startTooLong) ∧
    (s.state ≠ 0x0#4 → exec i s = .next { s with ctrlMode := m })) ∧
  (∀ s : State, exec .startReserved s = .next { s with ctrlMode := .reserved })

/-- SET_MODE (R115): MODE takes w[2:1] and nothing else changes; CTRL then reads the mode in bits 2:1
and START as 0. -/
def Obligations.SetModeStoresMode : Prop :=
  ∀ (s : State) (b : BitVec 2),
    ∃ t : State, exec (.setMode b) s = .next t ∧ t = { s with ctrlMode := t.ctrlMode } ∧
      t.ctrlMode.code = b ∧ t.readReg .ctrl = 0#29 ++ b ++ 0#1

/-- Every 32-bit write to CTRL that is not refused updates MODE from bits 2:1, a START or not, busy or
not; START reads 0, and bits 31:3 are ignored and read 0 (R41). While BUSY = 1 it changes nothing
else. -/
def Obligations.CtrlWriteAlwaysUpdatesMode : Prop :=
  ∀ (s t : State) (v : Word) (rest : List Move),
    s.moves = .host (.regWrite 0x000 .word v) :: rest → step s = .next t →
    t.readReg .ctrl = v &&& 0x6#32 ∧ t.moves = rest ∧
    (s.state ≠ 0x0#4 → t = { s with ctrlMode := t.ctrlMode, moves := rest }) ∧
    (v.extractLsb' 0 1 = 0#1 → t = { s with ctrlMode := t.ctrlMode, moves := rest })

/-! ### The reference ARP unit -/

/-- ARP_DECODE (R180), for an input that lies in the buffer: TOO_SHORT for R < 8, and for a body short
of the widths proto_fmt selects; else the window with the header fields as they stand and the four
views. -/
def Obligations.ArpDecodeResult : Prop :=
  ∀ (s : State) (p r hw pr : Nat), p = s.ds.base.toNat → r = s.ds.len.toNat →
    p + r ≤ s.config.maxFrameLen.toNat →
    hw = 6 → pr = (if s.be16 (p + 2) = 0x0800#16 then 4 else 6) →
    (r < 8 → exec .arpDecode s = .next { s with ds := { s.ds with resp := 1#4, ack := true } }) ∧
    (8 ≤ r → r < 8 + 2 * hw + 2 * pr → ∃ t : State, exec .arpDecode s = .next t ∧
      t = { s with ds := { s.ds with resp := 1#4, ack := true }, units := t.units }) ∧
    (8 + 2 * hw + 2 * pr ≤ r → ∃ t : State, exec .arpDecode s = .next t ∧
      t = { s with
        ds := { s.ds with resp := 0#4, ack := true }, arp := t.arp, units := t.units } ∧
      t.arp.hwFmt = s.be16 p ∧ t.arp.protoFmt = s.be16 (p + 2) ∧
      t.arp.hwLen = s.bufByte (p + 4) ∧ t.arp.protoLen = s.bufByte (p + 5) ∧
      t.arp.op = s.be16 (p + 6) ∧
      t.arp.sha.off.toNat = p + 8 ∧ t.arp.sha.len.toNat = hw ∧
      t.arp.spa.off.toNat = p + 8 + hw ∧ t.arp.spa.len.toNat = pr ∧
      t.arp.tha.off.toNat = p + 8 + hw + pr ∧ t.arp.tha.len.toNat = hw ∧
      t.arp.tpa.off.toNat = p + 8 + 2 * hw + pr ∧ t.arp.tpa.len.toNat = pr)

/-- The ARP width rows (R182); the selected widths stand in the model's own `units` (log 7). -/
def Obligations.ArpBodySelectsWidths : Prop :=
  ∀ s : State,
    exec .arpBodyIpv4 s = .next { s with units := { s.units with widths := ⟨6, 4⟩ } } ∧
    (∀ f : Half, f ≠ 0x0800#16 →
      exec (.arpBodyOther f) s = .next { s with units := { s.units with widths := ⟨6, 6⟩ } }) ∧
    (∀ f : Half, exec (decodeArpProto f) s = .next
      { s with units := { s.units with widths := if f = 0x0800#16 then ⟨6, 4⟩ else ⟨6, 6⟩ } })

/-- The ARP window is written only by an ARP_DECODE that answers OK, by an EXTERNAL unit's step that
answers OK to an ARP request (log 6, log 17), or by reset (R191, R247, R277, R300); no other step of any
agent changes it, an accepted START and an error answer included. -/
def Obligations.ArpWindowWriters : Prop :=
  ∀ s t : State, step s = .next t → t.arp ≠ s.arp →
    (s.fetched? = some .arpDecode ∧ s.dsUnit = .reference ∧ t.ds.ack = true ∧ t.ds.resp = 0#4) ∨
    (s.dsUnit = .external ∧ s.ds.cls = .arp ∧ ∃ (x : ExternalAnswer) (rest : List Move),
      s.moves = .external x :: rest ∧ x.arp ≠ none ∧ x.resp = 0#4) ∨
    (∃ rest : List Move, s.moves = .reset :: rest)

/-- The six words of the ARP window after an ARP_DECODE that answers OK (R190): every field at its
bits, reserved bits 0. -/
def Obligations.ArpWindowWords : Prop :=
  ∀ (s t : State) (p pr : Nat), p = s.ds.base.toNat →
    pr = (if s.be16 (p + 2) = 0x0800#16 then 4 else 6) →
    exec .arpDecode s = .next t → t.ds.resp = 0#4 →
    t.readReg .arpFmt = s.be16 (p + 2) ++ s.be16 p ∧
    t.readReg .arpLenOp = s.be16 (p + 6) ++ s.bufByte (p + 5) ++ s.bufByte (p + 4) ∧
    t.readReg .arpSha = 0#8 ++ 6#8 ++ half (p + 8) ∧
    t.readReg .arpSpa = 0#8 ++ BitVec.ofNat 8 pr ++ half (p + 14) ∧
    t.readReg .arpTha = 0#8 ++ 6#8 ++ half (p + 14 + pr) ∧
    t.readReg .arpTpa = 0#8 ++ BitVec.ofNat 8 pr ++ half (p + 20 + pr)

/-! ### The reference IPv4 unit -/

/-- IPV4_DECODE's header checks, for an input that lies in the buffer: TOO_SHORT exactly when R < 20
(R201), and with R ≥ 20 INVALID_HEADER_LENGTH exactly when ihl < 5 or ihl·4 > R (R202); an error writes
the answer and nothing else. -/
def Obligations.Ipv4HeaderChecks : Prop :=
  ∀ (s : State) (p r n : Nat), p = s.ds.base.toNat → r = s.ds.len.toNat →
    n = ((s.bufByte p).extractLsb' 0 4).toNat → p + r ≤ s.config.maxFrameLen.toNat →
    (r < 20 → exec .ipv4Decode s = .next { s with ds := { s.ds with resp := 1#4, ack := true } }) ∧
    (20 ≤ r → n < 5 ∨ r < 4 * n →
      exec .ipv4Decode s = .next { s with ds := { s.ds with resp := 2#4, ack := true } }) ∧
    (20 ≤ r → 5 ≤ n → 4 * n ≤ r →
      ∃ t : State, exec .ipv4Decode s = .next t ∧ t.ds.resp ≠ 1#4 ∧ t.ds.resp ≠ 2#4)

/-- IPV4_DECODE (R200, R203 to R211, R217) past the header-length check: when the options region
holds a well-formed option list, written from the rules as `OptionList`, the answer is OK, the window
holds the header's fields and the slots the list, and the slots behind it keep their values; when it
holds none, the answer is INVALID_OPTIONS and window and slots keep theirs. `units` is the model's own
(log 7); the places of DSCP and ECN are the spec's own supply (R113, log 14). -/
def Obligations.Ipv4DecodeFollowsOptionList : Prop :=
  ∀ (s : State) (p r n : Nat), p = s.ds.base.toNat → r = s.ds.len.toNat →
    n = ((s.bufByte p).extractLsb' 0 4).toNat → 20 ≤ r → p + r ≤ s.config.maxFrameLen.toNat →
    5 ≤ n → 4 * n ≤ r →
    (∀ opts : List OptEntry, OptionList s.bufByte (p + 4 * n) (p + 20) opts →
      ∃ t : State, exec .ipv4Decode s = .next t ∧
        t = { s with
          ds := { s.ds with resp := 0#4, ack := true }
          ip := ⟨(s.bufByte p).extractLsb' 0 4, (s.bufByte p).extractLsb' 4 4,
            (s.bufByte (p + 1)).extractLsb' 0 2, (s.bufByte (p + 1)).extractLsb' 2 6,
            s.be16 (p + 2), s.be16 (p + 4), (s.be16 (p + 6)).extractLsb' 0 13,
            (s.be16 (p + 6)).extractLsb' 13 3, s.bufByte (p + 8), s.bufByte (p + 9),
            s.be16 (p + 10), ⟨half (p + 12), 4#8⟩, ⟨half (p + 16), 4#8⟩,
            BitVec.ofNat 8 opts.length, BitVec.ofNat 8 ((n - 5) * 4), half (p + 20)⟩
          ipOpt := t.ipOpt
          units := t.units } ∧
        t.units.cls = s.units.cls ∧ t.units.widths = s.units.widths ∧
        opts.length ≤ 20 ∧
        (∀ (j : Nat) (h : j < opts.length), arrayRead t.ipOpt j =
          opts[j].valueOff ++ opts[j].length ++ opts[j].copy ++ opts[j].cls ++ opts[j].number) ∧
        (∀ j : Nat, opts.length ≤ j → arrayRead t.ipOpt j = arrayRead s.ipOpt j)) ∧
    ((¬ ∃ opts : List OptEntry, OptionList s.bufByte (p + 4 * n) (p + 20) opts) →
      ∃ t : State, exec .ipv4Decode s = .next t ∧
        t = { s with ds := { s.ds with resp := 3#4, ack := true }, units := t.units } ∧
        t.units.cls = s.units.cls ∧ t.units.widths = s.units.widths)

/-- The option walk always ends, by EOL, the region's end or a malformed length (R208 to R210), and
appends at most 20 entries for a 4-bit header length (R216). -/
def Obligations.OptionWalkEndsWithinTwentyEntries : Prop :=
  ∀ (rd : Nat → Byte) (p n : Nat), n ≤ 15 →
    (walkRegion rd p n).status ≠ .walking ∧ (walkRegion rd p n).opts.length ≤ 20

/-- The option rows are one turn of the walk at `q` (R208, R209, R210): OPT_EOL ends it; OPT_TLV
answers INVALID_OPTIONS in the rule's three cases and else appends the entry and moves `q` past it; a
walk that is over stays over. The walk stands in the model's own `units` (log 7). -/
def Obligations.OptionRowsTurnTheWalk : Prop :=
  ∀ (s : State) (w : OptWalk) (copy : BitVec 1) (cls : BitVec 2) (number : BitVec 5),
    w = s.units.walk → number ≠ 0#5 → w.e ≤ s.config.maxFrameLen.toNat →
    (w.status = .walking → exec (.optEol copy cls) s = .next
      { s with units := { s.units with walk := { w with status := .ended } } }) ∧
    (w.status ≠ .walking → exec (.optEol copy cls) s = .next s ∧
      exec (.optTlv copy cls number) s = .next s) ∧
    (w.status = .walking → w.e ≤ w.q → exec (.optTlv copy cls number) s = .next
      { s with units := { s.units with walk := { w with status := .ended } } }) ∧
    (w.status = .walking → w.q < w.e →
      w.e < w.q + 2 ∨ (s.bufByte (w.q + 1)).toNat < 2 ∨
        w.e < w.q + (s.bufByte (w.q + 1)).toNat →
      exec (.optTlv copy cls number) s = .next
        { s with units := { s.units with walk := { w with status := .invalid } } }) ∧
    (w.status = .walking → w.q + 2 ≤ w.e → 2 ≤ (s.bufByte (w.q + 1)).toNat →
      w.q + (s.bufByte (w.q + 1)).toNat ≤ w.e →
      exec (.optTlv copy cls number) s = .next
        { s with units := { s.units with walk :=
          ⟨w.q + (s.bufByte (w.q + 1)).toNat, w.e,
            w.opts ++ [⟨copy, cls, number, s.bufByte (w.q + 1), half (w.q + 2)⟩], .walking⟩ } })

/-- A region whose first type byte is EOL gives an empty option list and the answer OK (R211), whatever
its copy flag and class and whatever the padding (R209). -/
def Obligations.EolFirstGivesNoOptions : Prop :=
  ∀ (s : State) (p r n : Nat), p = s.ds.base.toNat → r = s.ds.len.toNat →
    n = ((s.bufByte p).extractLsb' 0 4).toNat → 20 ≤ r → p + r ≤ s.config.maxFrameLen.toNat →
    5 < n → 4 * n ≤ r → (s.bufByte (p + 20)).extractLsb' 0 5 = 0#5 →
    ∃ t : State, exec .ipv4Decode s = .next t ∧ t.ds.resp = 0#4 ∧ t.ds.ack = true ∧
      t.ip.optCount = 0#8 ∧ t.ipOpt = s.ipOpt

/-- The IPv4 window's words after an OK (R215): the wire bytes stand in them as the rule says. -/
def Obligations.Ipv4WindowWords : Prop :=
  ∀ (s t : State) (p n : Nat), p = s.ds.base.toNat →
    n = ((s.bufByte p).extractLsb' 0 4).toNat →
    exec .ipv4Decode s = .next t → t.ds.resp = 0#4 →
    t.readReg .ipVerIhl = s.be16 (p + 2) ++ s.bufByte (p + 1) ++ s.bufByte p ∧
    t.readReg .ipIdFrag = s.be16 (p + 6) ++ s.be16 (p + 4) ∧
    t.readReg .ipTtlProtoCsum = s.be16 (p + 10) ++ s.bufByte (p + 9) ++ s.bufByte (p + 8) ∧
    t.readReg .ipSrc = 0#8 ++ 4#8 ++ half (p + 12) ∧
    t.readReg .ipDst = 0#8 ++ 4#8 ++ half (p + 16) ∧
    t.readReg .ipOptInfo = half (p + 20) ++ BitVec.ofNat 8 ((n - 5) * 4) ++ t.ip.optCount

/-- The IPv4 window and the option slots are written only by an IPV4_DECODE that answers OK, by an
EXTERNAL unit's step that answers OK to an IPv4 request (log 6, log 17), or by reset (R217, R247, R277,
R300). -/
def Obligations.Ipv4WindowWriters : Prop :=
  ∀ s t : State, step s = .next t → (t.ip ≠ s.ip ∨ t.ipOpt ≠ s.ipOpt) →
    (s.fetched? = some .ipv4Decode ∧ s.dsUnit = .reference ∧ t.ds.ack = true ∧ t.ds.resp = 0#4) ∨
    (s.dsUnit = .external ∧ s.ds.cls = .ipv4 ∧ ∃ (x : ExternalAnswer) (rest : List Move),
      s.moves = .external x :: rest ∧ x.resp = 0#4) ∨
    (∃ rest : List Move, s.moves = .reset :: rest)

/-! ### Frames -/

/-- The engine's seven operations leave the inputs, the latched inputs, the parameters, the windows,
DS_RESP, and every byte of memory as they were. -/
def Obligations.EngineFrame : Prop :=
  ∀ (i : Instr) (s t : State), i.space = .stateCode → exec i s = .next t →
    t.ctrlMode = s.ctrlMode ∧ t.frameLen = s.frameLen ∧ t.lenL = s.lenL ∧ t.modeL = s.modeL ∧
    t.config = s.config ∧ t.dsUnit = s.dsUnit ∧ t.arp = s.arp ∧ t.ip = s.ip ∧ t.ipOpt = s.ipOpt ∧
    t.ds.resp = s.ds.resp ∧ t.frameBuf = s.frameBuf ∧ t.bufEpoch = s.bufEpoch ∧
    t.reply = s.reply ∧ t.moves = s.moves ∧ (∀ a : Nat, t.bufByte a = s.bufByte a) ∧
    (i ≠ .tagRead → t.vlanTag = s.vlanTag ∧ t.vlanInfo = s.vlanInfo) ∧
    (i ≠ .ethAddr → t.addrViews = s.addrViews) ∧
    (i ≠ .etypeLatch → t.etherType = s.etherType ∧ t.payload = s.payload) ∧
    (i ≠ .tagPeek → t.code = s.code)

/-- The reference units write their own window, DS_RESP and DS_ACK, and the model's `units`; no
register of the block, no other window and no byte of memory (R75, R246). -/
def Obligations.DownstreamFrame : Prop :=
  ∀ (i : Instr) (s t : State), i = .arpDecode ∨ i = .ipv4Decode → exec i s = .next t →
    t = { s with
      ds := { s.ds with resp := t.ds.resp, ack := true }
      arp := t.arp, ip := t.ip, ipOpt := t.ipOpt, units := t.units } ∧
    (i = .arpDecode → t.ip = s.ip ∧ t.ipOpt = s.ipOpt) ∧
    (i = .ipv4Decode → t.arp = s.arp) ∧
    t.ds.resp.toNat ≤ 3 ∧
    (t.ds.resp ≠ 0#4 → t.arp = s.arp ∧ t.ip = s.ip ∧ t.ipOpt = s.ipOpt) ∧
    (∀ a : Nat, t.bufByte a = s.bufByte a)

/-- The five commands leave the accumulator, the windows, the hand-off registers, FRAME_LEN, the
parameters and every byte of memory as they were. -/
def Obligations.CommandFrame : Prop :=
  ∀ (i : Instr) (s t : State), i.space = .ctrlWord → exec i s = .next t →
    t.vlanTag = s.vlanTag ∧ t.arp = s.arp ∧ t.ip = s.ip ∧ t.ipOpt = s.ipOpt ∧ t.ds = s.ds ∧
    t.frameLen = s.frameLen ∧ t.config = s.config ∧ t.dsUnit = s.dsUnit ∧ t.units = s.units ∧
    t.frameBuf = s.frameBuf ∧ t.bufEpoch = s.bufEpoch ∧ t.reply = s.reply ∧ t.moves = s.moves ∧
    (∀ a : Nat, t.bufByte a = s.bufByte a)

/-- The six combinational rows change the model's own `units` only: no register of the block and no
byte of memory. -/
def Obligations.CombinationalRowFrame : Prop :=
  ∀ (i : Instr) (s t : State),
    i.space = .etherType ∨ i.space = .arpProto ∨ i.space = .optType → exec i s = .next t →
    t = { s with units := t.units } ∧ (∀ a : Nat, t.bufByte a = s.bufByte a)

/-! ### The host's ports -/

/-- An aligned 32-bit read of a mapped register returns its value and changes nothing else (R72,
R80). -/
def Obligations.RegisterReadReturnsValue : Prop :=
  ∀ (s : State) (r : Reg),
    (∀ j, r = .ipOpt j → j < 20) → (∀ i, r = .vlanTag i → i < s.config.vlanMaxDepth.toNat) →
    hostAccess (.regRead r.offset .word) s = .next { s with reply := some (.word (s.readReg r)) }

/-- An unmapped aligned offset reads 0 and ignores writes (R50); VLAN_TAG offsets at or above
0x1000 + 4·VLAN_MAX_DEPTH are unmapped; no register read, mapped or not, changes anything but the
model's record of the value returned (log 11). -/
def Obligations.UnmappedOffsetsReadZero : Prop :=
  ∀ (s : State) (off : Nat) (v : Word), off % 4 = 0 →
    (∀ r : Reg, (∀ j, r = .ipOpt j → j < 20) →
      (∀ i, r = .vlanTag i → i < s.config.vlanMaxDepth.toNat) → r.offset ≠ off) →
    hostAccess (.regRead off .word) s = .next { s with reply := some (.word 0#32) } ∧
    hostAccess (.regWrite off .word v) s = .next s ∧
    (∀ (a : Nat) (width : AccessWidth) (t : State), hostAccess (.regRead a width) s = .next t →
      t = { s with reply := t.reply })

/-- FRAME_LEN takes bits 15:0 and reads back with the reserved bits 0 (R43); it changes nothing
else. -/
def Obligations.FrameLenWriteReadsBack : Prop :=
  ∀ (s : State) (v : Word),
    ∃ t : State, hostAccess (.regWrite 0x008 .word v) s = .next t ∧
      t = { s with frameLen := t.frameLen } ∧ t.readReg .frameLen = v &&& 0xFFFF#32

/-- Writes to every other mapped register are ignored (R42, R44 to R49, R190, R215, R216). -/
def Obligations.ReadOnlyRegistersIgnoreWrites : Prop :=
  ∀ (s : State) (r : Reg) (v : Word), r ≠ .ctrl → r ≠ .frameLen →
    (∀ j, r = .ipOpt j → j < 20) → (∀ i, r = .vlanTag i → i < s.config.vlanMaxDepth.toNat) →
    hostAccess (.regWrite r.offset .word v) s = .next s

/-- A host register access that is not an aligned 32-bit access is refused (R73). -/
def Obligations.OddRegisterAccessIsRefused : Prop :=
  ∀ (s : State) (off : Nat) (width : AccessWidth) (v : Word), width ≠ .word ∨ off % 4 ≠ 0 →
    hostAccess (.regRead off width) s = .refused .registerAccessForm ∧
    hostAccess (.regWrite off width v) s = .refused .registerAccessForm

/-- The host's frame-buffer port (R76): a write stores the byte at its address and nowhere else, a read
returns it, an address ≥ MAX_FRAME_LEN is refused; and a write while BUSY = 1 is refused (R86). That an
out-of-range write answers with its range also while BUSY = 1 is the order of log 9, and `reply`, where
the read's value stands, is the model's own field (log 11). -/
def Obligations.FrameBufferPort : Prop :=
  ∀ (s : State) (a : Nat) (v : Byte),
    (a < s.config.maxFrameLen.toNat → s.status.busy = false →
      ∃ t : State, hostAccess (.bufWrite a v) s = .next t ∧
        t = { s with frameBuf := t.frameBuf } ∧ t.bufByte a = v ∧
        (∀ b : Nat, b ≠ a → t.bufByte b = s.bufByte b)) ∧
    (a < s.config.maxFrameLen.toNat →
      hostAccess (.bufRead a) s = .next { s with reply := some (.byte (s.bufByte a)) }) ∧
    (a < s.config.maxFrameLen.toNat → s.status.busy = true →
      hostAccess (.bufWrite a v) s = .refused .bufferBusy) ∧
    (s.config.maxFrameLen.toNat ≤ a →
      hostAccess (.bufWrite a v) s = .refused .bufferRange ∧
      hostAccess (.bufRead a) s = .refused .bufferRange)

/-- STATUS as one number (R42): each field at its bits, bits 31:9 zero. -/
def Obligations.StatusWordLayout : Prop :=
  ∀ s : State, (s.readReg .status).toNat =
    (if s.status.busy then 1 else 0) + (if s.status.done then 2 else 0) +
    4 * (match s.status.cls with | .unclassified => 0 | .arp => 1 | .ipv4 => 2 | .unknown => 3) +
    16 * s.status.errCode.toNat + (if s.status.errDs then 256 else 0)

/-- The tag control field (R106): priority = v >> 13, drop_eligible = ((v >> 12) & 1) ≠ 0,
vlan_id = v & 0x0FFF. -/
def Obligations.TagControlFields : Prop :=
  ∀ v : Half, (tagPriority v).setWidth 16 = v >>> 13 ∧
    (tagDropEligible v = true ↔ (v >>> 12) &&& 1#16 ≠ 0#16) ∧
    (tagVlanId v).setWidth 16 = v &&& 0x0FFF#16

/-- Only a host byte write and reset change what the frame buffer reads (R74, R75, R76): every other
step of every agent leaves every byte. -/
def Obligations.BufferChangesOnlyByHostOrReset : Prop :=
  ∀ s t : State, step s = .next t →
    (∀ (a : Nat) (v : Byte) (rest : List Move), s.moves ≠ .host (.bufWrite a v) :: rest) →
    (∀ rest : List Move, s.moves ≠ .reset :: rest) →
    t.frameBuf = s.frameBuf ∧ ∀ a : Nat, t.bufByte a = s.bufByte a

/-- STATUS is written only by a START, by an operation that can finish, by DISPATCH and by reset
(R51). -/
def Obligations.StatusWriters : Prop :=
  ∀ s t : State, step s = .next t → t.status ≠ s.status →
    (∃ rest : List Move, s.moves = .reset :: rest) ∨
    (∃ i : Instr, s.fetched? = some i ∧
      (i = .startAuto ∨ i = .startExpectArp ∨ i = .startExpectIpv4 ∨ i = .ethAddr ∨
        i = .tagPeek ∨ i = .tagRead ∨ i = .dispatch ∨ i = .dsWait))

/-! ### Reset -/

/-- Taking reset (R300, R301): every register at its reset value, CONFIG at its constant, the request
and any parse gone. Two clauses are the model's choice: the frame buffer's bytes are new free values
`bufDraw` of the next epoch, the form log 4 gives R300's draws, and the steps still to come stay
(log 1). -/
def Obligations.ResetStepSetsResetValues : Prop :=
  ∀ (s : State) (rest : List Move), s.moves = .reset :: rest →
    ∃ t : State, step s = .next t ∧
      t.state = 0x0#4 ∧ t.off = 0#16 ∧ t.lenL = 0#16 ∧ t.modeL = .auto ∧ t.code = 0#16 ∧
      t.ds = ⟨false, .arp, 0#16, 0#16, false, 0#4⟩ ∧
      (∀ r : Reg, r ≠ .config → t.readReg r = 0#32) ∧
      t.readReg .config = s.config.maxFrameLen ++ s.config.vlanMaxDepth ∧
      t.busyOut = false ∧ t.doneOut = false ∧
      t.dsUnit = s.dsUnit ∧ t.moves = rest ∧
      (∀ a : Nat, t.bufByte a = Config.bufDraw (s.bufEpoch + 1) a)

/-- The state after reset, for every legal choice of the parameters, satisfies the invariant and the
outcome relation. -/
def Obligations.ResetStateIsSound : Prop :=
  (∀ (c : ConfigReg) (d : DsUnit), 14 ≤ c.maxFrameLen.toNat → 1 ≤ c.vlanMaxDepth.toNat →
    (State.resetWith c d).Inv ∧ (State.resetWith c d).OutcomeOk) ∧
  State.reset.Inv ∧ State.reset.OutcomeOk

/-! ### The whole machine -/

/-- Every step of every agent keeps the invariant: the parameters legal, the stores canonical and in
bounds, STATE one of the seven codes, BUSY exactly outside IDLE, the offsets of R251, the hand-off
registers in step with DS_WAIT. -/
def Obligations.StepKeepsInvariant : Prop :=
  ∀ s t : State, s.Inv → step s = .next t → t.Inv

/-- From a sound state no step faults, and a step is refused only for a host access or an EXTERNAL
unit's answer. -/
def Obligations.SoundStatesNeverFault : Prop :=
  ∀ s : State, s.Inv →
    (∀ f : Fault, step s ≠ .fault f) ∧
    (∀ r : Refusal, step s = .refused r →
      (∃ (a : HostAccess) (rest : List Move), s.moves = .host a :: rest) ∨
      (∃ (x : ExternalAnswer) (rest : List Move), s.moves = .external x :: rest ∧
        3 < x.resp.toNat))

/-- Every step keeps the outcome relation (R271, R250): the error codes with the causes and classes
that can produce them, UNKNOWN without error only in mode AUTO. -/
def Obligations.StepKeepsOutcomes : Prop :=
  ∀ s t : State, s.Inv → s.OutcomeOk → step s = .next t → t.OutcomeOk

/-- The transition table (R249): from a sound state the engine's step leads to the listed successors
only, under the listed conditions. R249 lists no engine step for IDLE or for DS_WAIT with DS_ACK = 0;
that the state stays there is the model's choice (log 8). -/
def Obligations.EngineTransitionTable : Prop :=
  ∀ s t : State, s.Inv → engineStep s = .next t →
    (s.state = 0x0#4 → t = s) ∧
    (s.state = 0x1#4 → t.state = if s.lenL.toNat < 12 then 0x0#4 else 0x2#4) ∧
    (s.state = 0x2#4 → t.state =
      if s.lenL.toNat < s.off.toNat + 2 then 0x0#4
      else if s.be16 s.off.toNat = 0x8100#16 then 0x3#4 else 0x4#4) ∧
    (s.state = 0x3#4 → t.state =
      if s.lenL.toNat < s.off.toNat + 4 ∨ s.vlanInfo.count = s.config.vlanMaxDepth then 0x0#4
      else 0x2#4) ∧
    (s.state = 0x4#4 → t.state = 0x5#4) ∧
    (s.state = 0x5#4 → t.state =
      if s.code = 0x0806#16 ∧ s.modeL ≠ .expectIpv4 ∨ s.code = 0x0800#16 ∧ s.modeL ≠ .expectArp
      then 0x6#4 else 0x0#4) ∧
    (s.state = 0x6#4 → t.state = if s.ds.ack then 0x0#4 else 0x6#4)

/-- TAG_OVERFLOW cannot occur when VLAN_MAX_DEPTH ≥ floor((MAX_FRAME_LEN − 12) / 4) (R165). -/
def Obligations.DeepAccumulatorNeverOverflows : Prop :=
  ∀ s t : State, s.Inv → s.state = 0x3#4 → s.status.errCode = 0#4 →
    (s.config.maxFrameLen.toNat - 12) / 4 ≤ s.config.vlanMaxDepth.toNat →
    exec .tagRead s = .next t → t.status.errCode ≠ 6#4

/-- The result of the tag loop (R167): `k` complete tags and a code that is none, all inside the frame
and within the slots, take 2·k + 1 engine steps to ETYPE_LATCH, with the tags in order. That with no
move given each step is the engine's is log 1's choice. -/
def Obligations.TagLoopResult : Prop :=
  ∀ (s : State) (k : Nat), s.moves = [] → s.state = 0x2#4 → s.off = 12#16 →
    s.vlanInfo = ⟨0#16, 0#16⟩ → s.lenL.toNat ≤ s.config.maxFrameLen.toNat →
    k ≤ s.config.vlanMaxDepth.toNat → s.TagStack s.lenL.toNat k →
    ∃ t : State, Sys2Proof.core.run (2 * k + 1) s = .next t ∧ t.state = 0x4#4 ∧
      t.vlanInfo.count.toNat = k ∧ t.vlanInfo.bytes.toNat = 4 * k ∧ t.off.toNat = 12 + 4 * k ∧
      t.code = s.be16 (12 + 4 * k) ∧
      (∀ j : Nat, j < k → arrayRead t.vlanTag j = s.be16 (14 + 4 * j)) ∧
      (∀ j : Nat, k ≤ j → arrayRead t.vlanTag j = arrayRead s.vlanTag j) ∧
      t.status = s.status ∧ t.addrViews = s.addrViews ∧ t.frameBuf = s.frameBuf

/-- A whole parse in mode AUTO of a frame with `k` tags and an EtherType that is neither ARP nor IPv4
(R240, R250, R251, R310): one host step and 2·k + 4 engine steps after the START is written, the block
is done with CLASS = UNKNOWN and no error, and every result register reads as the rules say; the
downstream windows are untouched. The schedule, no further move given after the START, is log 1's
choice. -/
def Obligations.UnknownFrameParse : Prop :=
  ∀ (s : State) (k len : Nat), s.moves = [start .auto] → s.state = 0x0#4 →
    len = s.frameLen.toNat → len ≤ s.config.maxFrameLen.toNat →
    k ≤ s.config.vlanMaxDepth.toNat → s.TagStack len k →
    s.be16 (12 + 4 * k) ≠ 0x0806#16 → s.be16 (12 + 4 * k) ≠ 0x0800#16 →
    ∃ t : State, Sys2Proof.core.run (1 + (2 * k + 4)) s = .next t ∧ t.Completed ∧
      t.readReg .status = 0x0000000E#32 ∧ t.readReg .addrViews = 0x06060600#32 ∧
      t.readReg .vlanInfo = half (4 * k) ++ half k ∧
      t.readReg .etherType = half (12 + 4 * k) ++ s.be16 (12 + 4 * k) ∧
      t.readReg .payload = half (len - (14 + 4 * k)) ++ half (14 + 4 * k) ∧
      (∀ j : Nat, j < k → t.readReg (.vlanTag j) = 0#16 ++ s.be16 (14 + 4 * j)) ∧
      (∀ j : Nat, k ≤ j → t.readReg (.vlanTag j) = s.readReg (.vlanTag j)) ∧
      t.arp = s.arp ∧ t.ip = s.ip ∧ t.ipOpt = s.ipOpt ∧ t.ds = s.ds

/-- A whole parse of an ARP frame with `k` tags under DS = REFERENCE, in mode AUTO or EXPECT_ARP
(R240, R243, R250, R310): one host step, 2·k + 5 engine steps and one decode step after the START is
written, the block is done with CLASS = ARP, the frame's result registers as the rules say, and, without
error, the six words of the window of the payload; a payload short of its widths ends in TOO_SHORT with
ERR_DS = 1 and leaves the window (R277). The schedule, no further move given after the START, is log 1's
choice. -/
def Obligations.ArpFrameParse : Prop :=
  ∀ (s : State) (k len p pr : Nat) (m : ParseMode), s.moves = [start m] →
    m = .auto ∨ m = .expectArp → s.dsUnit = .reference → s.state = 0x0#4 →
    len = s.frameLen.toNat → len ≤ s.config.maxFrameLen.toNat →
    k ≤ s.config.vlanMaxDepth.toNat → s.TagStack len k → s.be16 (12 + 4 * k) = 0x0806#16 →
    p = 14 + 4 * k → pr = (if s.be16 (p + 2) = 0x0800#16 then 4 else 6) →
    ∃ t : State, Sys2Proof.core.run (1 + (2 * k + 5) + 1) s = .next t ∧ t.Completed ∧
      t.readReg .addrViews = 0x06060600#32 ∧ t.readReg .vlanInfo = half (4 * k) ++ half k ∧
      (∀ j : Nat, j < k → t.readReg (.vlanTag j) = 0#16 ++ s.be16 (14 + 4 * j)) ∧
      (∀ j : Nat, k ≤ j → t.readReg (.vlanTag j) = s.readReg (.vlanTag j)) ∧
      t.readReg .etherType = half (12 + 4 * k) ++ 0x0806#16 ∧
      t.readReg .payload = half (len - p) ++ half p ∧
      t.ip = s.ip ∧ t.ipOpt = s.ipOpt ∧ t.ds.req = false ∧ t.ds.ack = false ∧
      (20 + 2 * pr ≤ len - p → t.readReg .status = 0x00000006#32 ∧
        t.readReg .arpFmt = s.be16 (p + 2) ++ s.be16 p ∧
        t.readReg .arpLenOp = s.be16 (p + 6) ++ s.bufByte (p + 5) ++ s.bufByte (p + 4) ∧
        t.readReg .arpSha = 0#8 ++ 6#8 ++ half (p + 8) ∧
        t.readReg .arpSpa = 0#8 ++ BitVec.ofNat 8 pr ++ half (p + 14) ∧
        t.readReg .arpTha = 0#8 ++ 6#8 ++ half (p + 14 + pr) ∧
        t.readReg .arpTpa = 0#8 ++ BitVec.ofNat 8 pr ++ half (p + 20 + pr)) ∧
      (len - p < 20 + 2 * pr → t.readReg .status = 0x00000116#32 ∧ t.arp = s.arp)

/-- A whole parse of an IPv4 frame with `k` tags under DS = REFERENCE, in mode AUTO or EXPECT_IPV4
(R240, R243, R250, R310): one host step, 2·k + 5 engine steps and one decode step after the START is
written, the block is done with CLASS = IPV4 and the frame's result registers as the rules say. A header
of fewer than 20 bytes, or with a header length below 5 or past the payload, ends in the downstream's
error with ERR_DS = 1 and leaves window and slots. Past these checks, when the options region holds an
option list (the empty one for a header of five words) the parse ends without error, with the six words
of the window and the list in the slots; when it holds none it ends in INVALID_OPTIONS and leaves window
and slots (R277). The schedule, no further move given after the START, is log 1's choice. -/
def Obligations.Ipv4FrameParse : Prop :=
  ∀ (s : State) (k len p n : Nat) (m : ParseMode), s.moves = [start m] →
    m = .auto ∨ m = .expectIpv4 → s.dsUnit = .reference → s.state = 0x0#4 →
    len = s.frameLen.toNat → len ≤ s.config.maxFrameLen.toNat →
    k ≤ s.config.vlanMaxDepth.toNat → s.TagStack len k → s.be16 (12 + 4 * k) = 0x0800#16 →
    p = 14 + 4 * k → n = ((s.bufByte p).extractLsb' 0 4).toNat →
    ∃ t : State, Sys2Proof.core.run (1 + (2 * k + 5) + 1) s = .next t ∧ t.Completed ∧
      t.readReg .addrViews = 0x06060600#32 ∧ t.readReg .vlanInfo = half (4 * k) ++ half k ∧
      (∀ j : Nat, j < k → t.readReg (.vlanTag j) = 0#16 ++ s.be16 (14 + 4 * j)) ∧
      (∀ j : Nat, k ≤ j → t.readReg (.vlanTag j) = s.readReg (.vlanTag j)) ∧
      t.readReg .etherType = half (12 + 4 * k) ++ 0x0800#16 ∧
      t.readReg .payload = half (len - p) ++ half p ∧
      t.arp = s.arp ∧ t.ds.req = false ∧ t.ds.ack = false ∧
      (len - p < 20 → t.readReg .status = 0x0000011A#32 ∧ t.ip = s.ip ∧ t.ipOpt = s.ipOpt) ∧
      (20 ≤ len - p → n < 5 ∨ len - p < 4 * n →
        t.readReg .status = 0x0000012A#32 ∧ t.ip = s.ip ∧ t.ipOpt = s.ipOpt) ∧
      (20 ≤ len - p → n = 5 → t.readReg .status = 0x0000000A#32 ∧ t.ipOpt = s.ipOpt) ∧
      (20 ≤ len - p → 5 ≤ n → 4 * n ≤ len - p →
        (∀ opts : List OptEntry, OptionList s.bufByte (p + 4 * n) (p + 20) opts →
          t.readReg .status = 0x0000000A#32 ∧
          t.readReg .ipVerIhl = s.be16 (p + 2) ++ s.bufByte (p + 1) ++ s.bufByte p ∧
          t.readReg .ipIdFrag = s.be16 (p + 6) ++ s.be16 (p + 4) ∧
          t.readReg .ipTtlProtoCsum = s.be16 (p + 10) ++ s.bufByte (p + 9) ++ s.bufByte (p + 8) ∧
          t.readReg .ipSrc = 0#8 ++ 4#8 ++ half (p + 12) ∧
          t.readReg .ipDst = 0#8 ++ 4#8 ++ half (p + 16) ∧
          t.readReg .ipOptInfo = half (p + 20) ++ BitVec.ofNat 8 ((n - 5) * 4) ++
            BitVec.ofNat 8 opts.length ∧
          (∀ (j : Nat) (h : j < opts.length), t.readReg (.ipOpt j) =
            opts[j].valueOff ++ opts[j].length ++ opts[j].copy ++ opts[j].cls ++ opts[j].number) ∧
          (∀ j : Nat, opts.length ≤ j → t.readReg (.ipOpt j) = s.readReg (.ipOpt j))) ∧
        ((¬ ∃ opts : List OptEntry, OptionList s.bufByte (p + 4 * n) (p + 20) opts) →
          t.readReg .status = 0x0000013A#32 ∧ t.ip = s.ip ∧ t.ipOpt = s.ipOpt))

/-- Under DS = REFERENCE, with no further host step, every parse ends (R166, R248, R271, R310): from a
sound busy state the block is done after at most 2·floor((LEN_L − 12) / 4) + 6 steps. That with no move
given an enabled step is taken at once, which stands for R311's fairness, is log 1's and log 12's
choice. -/
def Obligations.EveryParseEnds : Prop :=
  ∀ s : State, s.Inv → s.dsUnit = .reference → s.moves = [] → s.state ≠ 0x0#4 →
    ∃ (n : Nat) (t : State), n ≤ 2 * ((s.lenL.toNat - 12) / 4) + 6 ∧
      Sys2Proof.core.run n s = .next t ∧ t.Completed ∧
      t.lenL = s.lenL ∧ t.frameBuf = s.frameBuf

/-- A step that is not enabled leaves the state (log 8): IDLE, and DS_WAIT with no answer. So a
downstream unit that never answers hangs the block (R248): with an EXTERNAL unit, an open request and no
step given, the state stays as it is for any number of steps, DS_WAIT and BUSY with it. -/
def Obligations.UnansweredRequestHangs : Prop :=
  (∀ s : State, exec .idle s = .next s) ∧
  (∀ s : State, s.ds.ack = false → exec .dsWait s = .next s) ∧
  (∀ (s : State) (n : Nat), s.dsUnit = .external → s.state = 0x6#4 → s.ds.ack = false →
    s.moves = [] → Sys2Proof.core.run n s = .next s)

/-- An EXTERNAL unit's decode step (R247). An answer above 3 is refused. An error answer 1 to 3 sets
DS_RESP and DS_ACK and nothing else: the windows stay (R277's table, log 17). OK sets them and writes the
window of the request's class as drawn; for IPv4 each slot below OPT_COUNT takes the last value drawn for
it, and the other slots stay (log 6). That without an open request the state stays is log 8's choice. -/
def Obligations.ExternalAnswerBounds : Prop :=
  ∀ (s : State) (x : ExternalAnswer), s.dsUnit = .external →
    (s.ds.req = true → s.ds.ack = false →
      (3 < x.resp.toNat → externalStep x s = .refused .externalAnswer) ∧
      (x.resp.toNat ≤ 3 → x.resp ≠ 0#4 →
        externalStep x s = .next { s with ds := { s.ds with resp := x.resp, ack := true } }) ∧
      (x.resp = 0#4 → s.ds.cls = .arp → externalStep x s = .next
        { s with ds := { s.ds with resp := 0#4, ack := true }, arp := x.arp.getD s.arp }) ∧
      (x.resp = 0#4 → s.ds.cls = .ipv4 → ∃ t : State, externalStep x s = .next t ∧
        t = { s with
          ds := { s.ds with resp := 0#4, ack := true }, ip := x.ip.getD s.ip, ipOpt := t.ipOpt } ∧
        (∀ j : Nat, j < 20 → j < t.ip.optCount.toNat →
          arrayRead t.ipOpt j = (lookup x.slots.reverse j).getD (arrayRead s.ipOpt j)) ∧
        (∀ j : Nat, 20 ≤ j ∨ t.ip.optCount.toNat ≤ j →
          arrayRead t.ipOpt j = arrayRead s.ipOpt j))) ∧
    (s.ds.req = false ∨ s.ds.ack = true → externalStep x s = .next s)

/-- The engine depends on the frame's bytes only (R71, R74, R120): two buffers that agree below LEN_L
give the same operation. -/
def Obligations.EngineReadsOnlyFrame : Prop :=
  ∀ (i : Instr) (s t : State) (m : Memory) (epoch : Nat), i.space = .stateCode →
    (∀ a : Nat, a < s.lenL.toNat → (s.withBuffer m epoch).bufByte a = s.bufByte a) →
    exec i s = .next t → exec i (s.withBuffer m epoch) = .next (t.withBuffer m epoch)

/-- The reference units depend on the handed-off bytes only (R75): two buffers that agree on
[DS_BASE, DS_BASE + DS_LEN) give the same decode. -/
def Obligations.DownstreamReadsOnlyPayload : Prop :=
  ∀ (i : Instr) (s t : State) (m : Memory) (epoch : Nat), i = .arpDecode ∨ i = .ipv4Decode →
    (∀ a : Nat, s.ds.base.toNat ≤ a → a < s.ds.base.toNat + s.ds.len.toNat →
      (s.withBuffer m epoch).bufByte a = s.bufByte a) →
    exec i s = .next t → exec i (s.withBuffer m epoch) = .next (t.withBuffer m epoch)

/-- The latched inputs (R308): a write to FRAME_LEN or CTRL.MODE commutes with every engine and
reference step, so it affects the next parse only. -/
def Obligations.LatchedInputsDoNotAffectParse : Prop :=
  ∀ (s t : State) (n : Half) (m : ParseMode),
    (engineStep s = .next t → engineStep ((s.setFrameLen n).setCtrlMode m) =
      .next ((t.setFrameLen n).setCtrlMode m)) ∧
    (downstreamStep s = .next t → downstreamStep ((s.setFrameLen n).setCtrlMode m) =
      .next ((t.setFrameLen n).setCtrlMode m))
end

