-- ==== Sys2Proof/Laws/Memory.lean ====
section
/-! SUPPORT. The sparse stores: read after write, and every operation keeps the canonical form. -/

namespace Sys2Proof.Machine

variable {α : Type}

/-! ### Keys -/

/-- Listing a key adds no other key. -/
theorem mem_insertCell {a : Nat} {v : α} {c : Nat × α} :
    ∀ {m : List (Nat × α)}, c ∈ insertCell a v m → c = (a, v) ∨ c ∈ m
  | [], h => by simpa [insertCell] using h
  | (k, w) :: rest, h => by
    unfold insertCell at h
    split at h
    · simpa using h
    · split at h
      · rcases List.mem_cons.1 h with h | h
        · exact .inl h
        · exact .inr (List.mem_cons_of_mem _ h)
      · rcases List.mem_cons.1 h with h | h
        · exact .inr (h ▸ List.mem_cons_self)
        · exact (mem_insertCell h).imp id (List.mem_cons_of_mem _)

/-- Erasing a key adds none. -/
theorem mem_eraseCell {a : Nat} {c : Nat × α} :
    ∀ {m : List (Nat × α)}, c ∈ eraseCell a m → c ∈ m ∧ c.1 ≠ a
  | [], h => by simp [eraseCell] at h
  | (k, w) :: rest, h => by
    unfold eraseCell at h
    split at h
    · exact (mem_eraseCell h).imp (List.mem_cons_of_mem _) id
    · rename_i hk
      rcases List.mem_cons.1 h with h | h
      · subst h
        exact ⟨List.mem_cons_self, hk⟩
      · exact (mem_eraseCell h).imp (List.mem_cons_of_mem _) id

/-! ### The canonical form is kept -/

/-- Listing a key keeps the keys rising. -/
theorem keysRise_insertCell {a : Nat} {v : α} :
    ∀ {m : List (Nat × α)}, KeysRise m → KeysRise (insertCell a v m)
  | [], _ => by simp [insertCell, KeysRise]
  | (k, w) :: rest, h => by
    have hp := List.pairwise_cons.1 h
    unfold insertCell
    split
    · rename_i hlt
      refine List.pairwise_cons.2 ⟨fun c hc => ?_, h⟩
      rcases List.mem_cons.1 hc with rfl | hc
      · exact hlt
      · exact Nat.lt_trans hlt (hp.1 c hc)
    · split
      · rename_i heq
        exact List.pairwise_cons.2 ⟨fun c hc => heq ▸ hp.1 c hc, hp.2⟩
      · rename_i h1 h2
        refine List.pairwise_cons.2 ⟨fun c hc => ?_, keysRise_insertCell hp.2⟩
        rcases mem_insertCell hc with rfl | hc
        · show k < a
          omega
        · exact hp.1 c hc

/-- Erasing a key keeps the keys rising. -/
theorem keysRise_eraseCell {a : Nat} :
    ∀ {m : List (Nat × α)}, KeysRise m → KeysRise (eraseCell a m)
  | [], _ => by simp [eraseCell, KeysRise]
  | (k, w) :: rest, h => by
    have hp := List.pairwise_cons.1 h
    unfold eraseCell
    split
    · exact keysRise_eraseCell hp.2
    · exact List.pairwise_cons.2
        ⟨fun c hc => hp.1 c (mem_eraseCell hc).1, keysRise_eraseCell hp.2⟩

/-- A buffer write keeps the canonical form. -/
theorem Memory.write_wf {m : Memory} (h : Memory.wf m) (a : Nat) (v : Byte) :
    Memory.wf (Memory.write m a v) :=
  keysRise_insertCell h

/-- A buffer write lists no address but its own and those listed before. -/
theorem Memory.write_bound {m : Memory} {n a : Nat} (h : ∀ c ∈ m, c.1 < n) (ha : a < n) (v : Byte) :
    ∀ c ∈ Memory.write m a v, c.1 < n := by
  intro c hc
  rcases mem_insertCell hc with rfl | hc
  · exact ha
  · exact h c hc

/-- A register-array write keeps the canonical form. -/
theorem arrayWrite_wf {n : Nat} {f : List (Nat × BitVec n)} (h : ArrayWf f) (j : Nat)
    (v : BitVec n) : ArrayWf (arrayWrite f j v) := by
  unfold arrayWrite
  split
  · exact ⟨keysRise_eraseCell h.1, fun c hc => h.2 c (mem_eraseCell hc).1⟩
  · rename_i hv
    refine ⟨keysRise_insertCell h.1, fun c hc => ?_⟩
    rcases mem_insertCell hc with rfl | hc
    · exact hv
    · exact h.2 c hc

/-- A register-array write lists no index but its own and those listed before. -/
theorem arrayWrite_bound {n : Nat} {f : List (Nat × BitVec n)} {b j : Nat} (h : ∀ c ∈ f, c.1 < b)
    (hj : j < b) (v : BitVec n) : ∀ c ∈ arrayWrite f j v, c.1 < b := by
  unfold arrayWrite
  split
  · exact fun c hc => h c (mem_eraseCell hc).1
  · intro c hc
    rcases mem_insertCell hc with rfl | hc
    · exact hj
    · exact h c hc

/-! ### Read after write -/

/-- Reading the listed key. -/
@[simp] theorem lookup_insertCell_same (a : Nat) (v : α) :
    ∀ m : List (Nat × α), lookup (insertCell a v m) a = some v
  | [] => by simp [insertCell, lookup]
  | (k, w) :: rest => by
    unfold insertCell
    split
    · simp [lookup]
    · split
      · simp [lookup]
      · rename_i h1 h2
        simp [lookup, Ne.symm h2, lookup_insertCell_same a v rest]

/-- Reading another key. -/
theorem lookup_insertCell_other {a b : Nat} (v : α) (hab : b ≠ a) :
    ∀ m : List (Nat × α), lookup (insertCell a v m) b = lookup m b
  | [] => by simp [insertCell, lookup, Ne.symm hab]
  | (k, w) :: rest => by
    unfold insertCell
    split
    · simp [lookup, Ne.symm hab]
    · split
      · rename_i _ heq
        subst heq
        simp [lookup, Ne.symm hab]
      · simp only [lookup, lookup_insertCell_other v hab rest]

/-- Reading the erased key. -/
@[simp] theorem lookup_eraseCell_same (a : Nat) :
    ∀ m : List (Nat × α), lookup (eraseCell a m) a = none
  | [] => rfl
  | (k, w) :: rest => by
    unfold eraseCell
    split
    · exact lookup_eraseCell_same a rest
    · rename_i hk
      simp [lookup, hk, lookup_eraseCell_same a rest]

/-- Reading another key than the erased one. -/
theorem lookup_eraseCell_other {a b : Nat} (hab : b ≠ a) :
    ∀ m : List (Nat × α), lookup (eraseCell a m) b = lookup m b
  | [] => rfl
  | (k, w) :: rest => by
    unfold eraseCell
    split
    · rename_i hk
      subst hk
      simp [lookup, Ne.symm hab, lookup_eraseCell_other hab rest]
    · simp only [lookup, lookup_eraseCell_other hab rest]

/-- A key is looked up in the first list, then in the second. -/
theorem lookup_append (a : Nat) :
    ∀ m m' : List (Nat × α), lookup (m ++ m') a = (lookup m a).or (lookup m' a)
  | [], _ => rfl
  | (k, v) :: rest, m' => by
    simp only [List.cons_append, lookup]
    split
    · rfl
    · exact lookup_append a rest m'

/-- The written byte. -/
@[simp] theorem Memory.read_write_same (m : Memory) (a : Nat) (v : Byte) :
    Memory.read (Memory.write m a v) a = some v :=
  lookup_insertCell_same a v m

/-- Another byte. -/
theorem Memory.read_write_other (m : Memory) {a b : Nat} (v : Byte) (h : b ≠ a) :
    Memory.read (Memory.write m a v) b = Memory.read m b :=
  lookup_insertCell_other v h m

/-- The written entry of a register array. -/
@[simp] theorem arrayRead_write_same {n : Nat} (f : List (Nat × BitVec n)) (j : Nat)
    (v : BitVec n) : arrayRead (arrayWrite f j v) j = v := by
  unfold arrayRead arrayWrite
  split
  · rename_i h
    simp [h]
  · simp

/-- Another entry of a register array. -/
theorem arrayRead_write_other {n : Nat} (f : List (Nat × BitVec n)) {i j : Nat} (v : BitVec n)
    (h : i ≠ j) : arrayRead (arrayWrite f j v) i = arrayRead f i := by
  unfold arrayRead arrayWrite
  split
  · rw [lookup_eraseCell_other h]
  · rw [lookup_insertCell_other v h]

/-- The byte the host wrote is the byte read (00_scope.md R16). -/
@[simp] theorem State.bufByte_bufWrite_same (s : State) (a : Nat) (v : Byte) :
    (s.bufWrite a v).bufByte a = v := by
  simp [State.bufByte, State.bufWrite]

/-- Every other byte stays, a free one the same free one. -/
theorem State.bufByte_bufWrite_other (s : State) {a b : Nat} (v : Byte) (h : b ≠ a) :
    (s.bufWrite a v).bufByte b = s.bufByte b := by
  simp [State.bufByte, State.bufWrite, Memory.read_write_other s.frameBuf v h]

end Sys2Proof.Machine
end

