-- ==== Sys2Proof/Laws/State.lean ====
section
/-! SUPPORT. One lemma per field of State per named update (Machine/Ops.lean), each true by rfl: no proof
needs to unfold a record update. -/

namespace Sys2Proof.Machine

variable (s : State)

/-! ### goto -/

@[simp] theorem State.goto_state (c : BitVec 4) : (s.goto c).state = c := rfl
@[simp] theorem State.goto_off (c : BitVec 4) : (s.goto c).off = s.off := rfl
@[simp] theorem State.goto_lenL (c : BitVec 4) : (s.goto c).lenL = s.lenL := rfl
@[simp] theorem State.goto_modeL (c : BitVec 4) : (s.goto c).modeL = s.modeL := rfl
@[simp] theorem State.goto_code (c : BitVec 4) : (s.goto c).code = s.code := rfl
@[simp] theorem State.goto_ds (c : BitVec 4) : (s.goto c).ds = s.ds := rfl
@[simp] theorem State.goto_ctrlMode (c : BitVec 4) : (s.goto c).ctrlMode = s.ctrlMode := rfl
@[simp] theorem State.goto_status (c : BitVec 4) : (s.goto c).status = s.status := rfl
@[simp] theorem State.goto_frameLen (c : BitVec 4) : (s.goto c).frameLen = s.frameLen := rfl
@[simp] theorem State.goto_etherType (c : BitVec 4) : (s.goto c).etherType = s.etherType := rfl
@[simp] theorem State.goto_payload (c : BitVec 4) : (s.goto c).payload = s.payload := rfl
@[simp] theorem State.goto_vlanInfo (c : BitVec 4) : (s.goto c).vlanInfo = s.vlanInfo := rfl
@[simp] theorem State.goto_addrViews (c : BitVec 4) : (s.goto c).addrViews = s.addrViews := rfl
@[simp] theorem State.goto_config (c : BitVec 4) : (s.goto c).config = s.config := rfl
@[simp] theorem State.goto_vlanTag (c : BitVec 4) : (s.goto c).vlanTag = s.vlanTag := rfl
@[simp] theorem State.goto_arp (c : BitVec 4) : (s.goto c).arp = s.arp := rfl
@[simp] theorem State.goto_ip (c : BitVec 4) : (s.goto c).ip = s.ip := rfl
@[simp] theorem State.goto_ipOpt (c : BitVec 4) : (s.goto c).ipOpt = s.ipOpt := rfl
@[simp] theorem State.goto_frameBuf (c : BitVec 4) : (s.goto c).frameBuf = s.frameBuf := rfl
@[simp] theorem State.goto_dsUnit (c : BitVec 4) : (s.goto c).dsUnit = s.dsUnit := rfl
@[simp] theorem State.goto_bufEpoch (c : BitVec 4) : (s.goto c).bufEpoch = s.bufEpoch := rfl
@[simp] theorem State.goto_units (c : BitVec 4) : (s.goto c).units = s.units := rfl
@[simp] theorem State.goto_reply (c : BitVec 4) : (s.goto c).reply = s.reply := rfl
@[simp] theorem State.goto_moves (c : BitVec 4) : (s.goto c).moves = s.moves := rfl

/-! ### finish -/

@[simp] theorem State.finish_state (c : BitVec 4) : (s.finish c).state = StateCode.idle := rfl
@[simp] theorem State.finish_off (c : BitVec 4) : (s.finish c).off = s.off := rfl
@[simp] theorem State.finish_lenL (c : BitVec 4) : (s.finish c).lenL = s.lenL := rfl
@[simp] theorem State.finish_modeL (c : BitVec 4) : (s.finish c).modeL = s.modeL := rfl
@[simp] theorem State.finish_code (c : BitVec 4) : (s.finish c).code = s.code := rfl
@[simp] theorem State.finish_ds (c : BitVec 4) : (s.finish c).ds = s.ds := rfl
@[simp] theorem State.finish_ctrlMode (c : BitVec 4) : (s.finish c).ctrlMode = s.ctrlMode := rfl
@[simp] theorem State.finish_status (c : BitVec 4) :
    (s.finish c).status = s.status.finished c := rfl
@[simp] theorem State.finish_frameLen (c : BitVec 4) : (s.finish c).frameLen = s.frameLen := rfl
@[simp] theorem State.finish_etherType (c : BitVec 4) : (s.finish c).etherType = s.etherType := rfl
@[simp] theorem State.finish_payload (c : BitVec 4) : (s.finish c).payload = s.payload := rfl
@[simp] theorem State.finish_vlanInfo (c : BitVec 4) : (s.finish c).vlanInfo = s.vlanInfo := rfl
@[simp] theorem State.finish_addrViews (c : BitVec 4) : (s.finish c).addrViews = s.addrViews := rfl
@[simp] theorem State.finish_config (c : BitVec 4) : (s.finish c).config = s.config := rfl
@[simp] theorem State.finish_vlanTag (c : BitVec 4) : (s.finish c).vlanTag = s.vlanTag := rfl
@[simp] theorem State.finish_arp (c : BitVec 4) : (s.finish c).arp = s.arp := rfl
@[simp] theorem State.finish_ip (c : BitVec 4) : (s.finish c).ip = s.ip := rfl
@[simp] theorem State.finish_ipOpt (c : BitVec 4) : (s.finish c).ipOpt = s.ipOpt := rfl
@[simp] theorem State.finish_frameBuf (c : BitVec 4) : (s.finish c).frameBuf = s.frameBuf := rfl
@[simp] theorem State.finish_dsUnit (c : BitVec 4) : (s.finish c).dsUnit = s.dsUnit := rfl
@[simp] theorem State.finish_bufEpoch (c : BitVec 4) : (s.finish c).bufEpoch = s.bufEpoch := rfl
@[simp] theorem State.finish_units (c : BitVec 4) : (s.finish c).units = s.units := rfl
@[simp] theorem State.finish_reply (c : BitVec 4) : (s.finish c).reply = s.reply := rfl
@[simp] theorem State.finish_moves (c : BitVec 4) : (s.finish c).moves = s.moves := rfl

/-! ### raise -/

@[simp] theorem State.raise_state (e : ErrorKind) : (s.raise e).state = StateCode.idle := rfl
@[simp] theorem State.raise_off (e : ErrorKind) : (s.raise e).off = s.off := rfl
@[simp] theorem State.raise_lenL (e : ErrorKind) : (s.raise e).lenL = s.lenL := rfl
@[simp] theorem State.raise_modeL (e : ErrorKind) : (s.raise e).modeL = s.modeL := rfl
@[simp] theorem State.raise_code (e : ErrorKind) : (s.raise e).code = s.code := rfl
@[simp] theorem State.raise_ds (e : ErrorKind) : (s.raise e).ds = s.ds := rfl
@[simp] theorem State.raise_ctrlMode (e : ErrorKind) : (s.raise e).ctrlMode = s.ctrlMode := rfl
@[simp] theorem State.raise_status (e : ErrorKind) :
    (s.raise e).status = s.status.finished e.code := rfl
@[simp] theorem State.raise_frameLen (e : ErrorKind) : (s.raise e).frameLen = s.frameLen := rfl
@[simp] theorem State.raise_etherType (e : ErrorKind) : (s.raise e).etherType = s.etherType := rfl
@[simp] theorem State.raise_payload (e : ErrorKind) : (s.raise e).payload = s.payload := rfl
@[simp] theorem State.raise_vlanInfo (e : ErrorKind) : (s.raise e).vlanInfo = s.vlanInfo := rfl
@[simp] theorem State.raise_addrViews (e : ErrorKind) : (s.raise e).addrViews = s.addrViews := rfl
@[simp] theorem State.raise_config (e : ErrorKind) : (s.raise e).config = s.config := rfl
@[simp] theorem State.raise_vlanTag (e : ErrorKind) : (s.raise e).vlanTag = s.vlanTag := rfl
@[simp] theorem State.raise_arp (e : ErrorKind) : (s.raise e).arp = s.arp := rfl
@[simp] theorem State.raise_ip (e : ErrorKind) : (s.raise e).ip = s.ip := rfl
@[simp] theorem State.raise_ipOpt (e : ErrorKind) : (s.raise e).ipOpt = s.ipOpt := rfl
@[simp] theorem State.raise_frameBuf (e : ErrorKind) : (s.raise e).frameBuf = s.frameBuf := rfl
@[simp] theorem State.raise_dsUnit (e : ErrorKind) : (s.raise e).dsUnit = s.dsUnit := rfl
@[simp] theorem State.raise_bufEpoch (e : ErrorKind) : (s.raise e).bufEpoch = s.bufEpoch := rfl
@[simp] theorem State.raise_units (e : ErrorKind) : (s.raise e).units = s.units := rfl
@[simp] theorem State.raise_reply (e : ErrorKind) : (s.raise e).reply = s.reply := rfl
@[simp] theorem State.raise_moves (e : ErrorKind) : (s.raise e).moves = s.moves := rfl

/-! ### setCtrlMode -/

@[simp] theorem State.setCtrlMode_state (m : ParseMode) : (s.setCtrlMode m).state = s.state := rfl
@[simp] theorem State.setCtrlMode_off (m : ParseMode) : (s.setCtrlMode m).off = s.off := rfl
@[simp] theorem State.setCtrlMode_lenL (m : ParseMode) : (s.setCtrlMode m).lenL = s.lenL := rfl
@[simp] theorem State.setCtrlMode_modeL (m : ParseMode) : (s.setCtrlMode m).modeL = s.modeL := rfl
@[simp] theorem State.setCtrlMode_code (m : ParseMode) : (s.setCtrlMode m).code = s.code := rfl
@[simp] theorem State.setCtrlMode_ds (m : ParseMode) : (s.setCtrlMode m).ds = s.ds := rfl
@[simp] theorem State.setCtrlMode_ctrlMode (m : ParseMode) : (s.setCtrlMode m).ctrlMode = m := rfl
@[simp] theorem State.setCtrlMode_status (m : ParseMode) :
    (s.setCtrlMode m).status = s.status := rfl
@[simp] theorem State.setCtrlMode_frameLen (m : ParseMode) :
    (s.setCtrlMode m).frameLen = s.frameLen := rfl
@[simp] theorem State.setCtrlMode_etherType (m : ParseMode) :
    (s.setCtrlMode m).etherType = s.etherType := rfl
@[simp] theorem State.setCtrlMode_payload (m : ParseMode) :
    (s.setCtrlMode m).payload = s.payload := rfl
@[simp] theorem State.setCtrlMode_vlanInfo (m : ParseMode) :
    (s.setCtrlMode m).vlanInfo = s.vlanInfo := rfl
@[simp] theorem State.setCtrlMode_addrViews (m : ParseMode) :
    (s.setCtrlMode m).addrViews = s.addrViews := rfl
@[simp] theorem State.setCtrlMode_config (m : ParseMode) :
    (s.setCtrlMode m).config = s.config := rfl
@[simp] theorem State.setCtrlMode_vlanTag (m : ParseMode) :
    (s.setCtrlMode m).vlanTag = s.vlanTag := rfl
@[simp] theorem State.setCtrlMode_arp (m : ParseMode) : (s.setCtrlMode m).arp = s.arp := rfl
@[simp] theorem State.setCtrlMode_ip (m : ParseMode) : (s.setCtrlMode m).ip = s.ip := rfl
@[simp] theorem State.setCtrlMode_ipOpt (m : ParseMode) : (s.setCtrlMode m).ipOpt = s.ipOpt := rfl
@[simp] theorem State.setCtrlMode_frameBuf (m : ParseMode) :
    (s.setCtrlMode m).frameBuf = s.frameBuf := rfl
@[simp] theorem State.setCtrlMode_dsUnit (m : ParseMode) :
    (s.setCtrlMode m).dsUnit = s.dsUnit := rfl
@[simp] theorem State.setCtrlMode_bufEpoch (m : ParseMode) :
    (s.setCtrlMode m).bufEpoch = s.bufEpoch := rfl
@[simp] theorem State.setCtrlMode_units (m : ParseMode) : (s.setCtrlMode m).units = s.units := rfl
@[simp] theorem State.setCtrlMode_reply (m : ParseMode) : (s.setCtrlMode m).reply = s.reply := rfl
@[simp] theorem State.setCtrlMode_moves (m : ParseMode) : (s.setCtrlMode m).moves = s.moves := rfl

/-! ### setFrameLen -/

@[simp] theorem State.setFrameLen_state (n : Half) : (s.setFrameLen n).state = s.state := rfl
@[simp] theorem State.setFrameLen_off (n : Half) : (s.setFrameLen n).off = s.off := rfl
@[simp] theorem State.setFrameLen_lenL (n : Half) : (s.setFrameLen n).lenL = s.lenL := rfl
@[simp] theorem State.setFrameLen_modeL (n : Half) : (s.setFrameLen n).modeL = s.modeL := rfl
@[simp] theorem State.setFrameLen_code (n : Half) : (s.setFrameLen n).code = s.code := rfl
@[simp] theorem State.setFrameLen_ds (n : Half) : (s.setFrameLen n).ds = s.ds := rfl
@[simp] theorem State.setFrameLen_ctrlMode (n : Half) :
    (s.setFrameLen n).ctrlMode = s.ctrlMode := rfl
@[simp] theorem State.setFrameLen_status (n : Half) : (s.setFrameLen n).status = s.status := rfl
@[simp] theorem State.setFrameLen_frameLen (n : Half) : (s.setFrameLen n).frameLen = n := rfl
@[simp] theorem State.setFrameLen_etherType (n : Half) :
    (s.setFrameLen n).etherType = s.etherType := rfl
@[simp] theorem State.setFrameLen_payload (n : Half) : (s.setFrameLen n).payload = s.payload := rfl
@[simp] theorem State.setFrameLen_vlanInfo (n : Half) :
    (s.setFrameLen n).vlanInfo = s.vlanInfo := rfl
@[simp] theorem State.setFrameLen_addrViews (n : Half) :
    (s.setFrameLen n).addrViews = s.addrViews := rfl
@[simp] theorem State.setFrameLen_config (n : Half) : (s.setFrameLen n).config = s.config := rfl
@[simp] theorem State.setFrameLen_vlanTag (n : Half) : (s.setFrameLen n).vlanTag = s.vlanTag := rfl
@[simp] theorem State.setFrameLen_arp (n : Half) : (s.setFrameLen n).arp = s.arp := rfl
@[simp] theorem State.setFrameLen_ip (n : Half) : (s.setFrameLen n).ip = s.ip := rfl
@[simp] theorem State.setFrameLen_ipOpt (n : Half) : (s.setFrameLen n).ipOpt = s.ipOpt := rfl
@[simp] theorem State.setFrameLen_frameBuf (n : Half) :
    (s.setFrameLen n).frameBuf = s.frameBuf := rfl
@[simp] theorem State.setFrameLen_dsUnit (n : Half) : (s.setFrameLen n).dsUnit = s.dsUnit := rfl
@[simp] theorem State.setFrameLen_bufEpoch (n : Half) :
    (s.setFrameLen n).bufEpoch = s.bufEpoch := rfl
@[simp] theorem State.setFrameLen_units (n : Half) : (s.setFrameLen n).units = s.units := rfl
@[simp] theorem State.setFrameLen_reply (n : Half) : (s.setFrameLen n).reply = s.reply := rfl
@[simp] theorem State.setFrameLen_moves (n : Half) : (s.setFrameLen n).moves = s.moves := rfl

/-! ### beginParse -/

@[simp] theorem State.beginParse_state (m : ParseMode) :
    (s.beginParse m).state = StateCode.ethAddr := rfl
@[simp] theorem State.beginParse_off (m : ParseMode) : (s.beginParse m).off = 0#16 := rfl
@[simp] theorem State.beginParse_lenL (m : ParseMode) : (s.beginParse m).lenL = s.frameLen := rfl
@[simp] theorem State.beginParse_modeL (m : ParseMode) : (s.beginParse m).modeL = m := rfl
@[simp] theorem State.beginParse_code (m : ParseMode) : (s.beginParse m).code = 0#16 := rfl
@[simp] theorem State.beginParse_ds (m : ParseMode) : (s.beginParse m).ds = s.ds := rfl
@[simp] theorem State.beginParse_ctrlMode (m : ParseMode) :
    (s.beginParse m).ctrlMode = s.ctrlMode := rfl
@[simp] theorem State.beginParse_status (m : ParseMode) :
    (s.beginParse m).status = Status.started := rfl
@[simp] theorem State.beginParse_frameLen (m : ParseMode) :
    (s.beginParse m).frameLen = s.frameLen := rfl
@[simp] theorem State.beginParse_etherType (m : ParseMode) :
    (s.beginParse m).etherType = ⟨0#16, 0#16⟩ := rfl
@[simp] theorem State.beginParse_payload (m : ParseMode) :
    (s.beginParse m).payload = ⟨0#16, 0#16⟩ := rfl
@[simp] theorem State.beginParse_vlanInfo (m : ParseMode) :
    (s.beginParse m).vlanInfo = ⟨0#16, 0#16⟩ := rfl
@[simp] theorem State.beginParse_addrViews (m : ParseMode) :
    (s.beginParse m).addrViews = ⟨0#8, 0#8, 0#8, 0#8⟩ := rfl
@[simp] theorem State.beginParse_config (m : ParseMode) : (s.beginParse m).config = s.config := rfl
@[simp] theorem State.beginParse_vlanTag (m : ParseMode) :
    (s.beginParse m).vlanTag = s.vlanTag := rfl
@[simp] theorem State.beginParse_arp (m : ParseMode) : (s.beginParse m).arp = s.arp := rfl
@[simp] theorem State.beginParse_ip (m : ParseMode) : (s.beginParse m).ip = s.ip := rfl
@[simp] theorem State.beginParse_ipOpt (m : ParseMode) : (s.beginParse m).ipOpt = s.ipOpt := rfl
@[simp] theorem State.beginParse_frameBuf (m : ParseMode) :
    (s.beginParse m).frameBuf = s.frameBuf := rfl
@[simp] theorem State.beginParse_dsUnit (m : ParseMode) : (s.beginParse m).dsUnit = s.dsUnit := rfl
@[simp] theorem State.beginParse_bufEpoch (m : ParseMode) :
    (s.beginParse m).bufEpoch = s.bufEpoch := rfl
@[simp] theorem State.beginParse_units (m : ParseMode) : (s.beginParse m).units = s.units := rfl
@[simp] theorem State.beginParse_reply (m : ParseMode) : (s.beginParse m).reply = s.reply := rfl
@[simp] theorem State.beginParse_moves (m : ParseMode) : (s.beginParse m).moves = s.moves := rfl

/-! ### latchAddrViews -/

@[simp] theorem State.latchAddrViews_state : (s.latchAddrViews).state = StateCode.tagPeek := rfl
@[simp] theorem State.latchAddrViews_off : (s.latchAddrViews).off = 12#16 := rfl
@[simp] theorem State.latchAddrViews_lenL : (s.latchAddrViews).lenL = s.lenL := rfl
@[simp] theorem State.latchAddrViews_modeL : (s.latchAddrViews).modeL = s.modeL := rfl
@[simp] theorem State.latchAddrViews_code : (s.latchAddrViews).code = s.code := rfl
@[simp] theorem State.latchAddrViews_ds : (s.latchAddrViews).ds = s.ds := rfl
@[simp] theorem State.latchAddrViews_ctrlMode : (s.latchAddrViews).ctrlMode = s.ctrlMode := rfl
@[simp] theorem State.latchAddrViews_status : (s.latchAddrViews).status = s.status := rfl
@[simp] theorem State.latchAddrViews_frameLen : (s.latchAddrViews).frameLen = s.frameLen := rfl
@[simp] theorem State.latchAddrViews_etherType : (s.latchAddrViews).etherType = s.etherType := rfl
@[simp] theorem State.latchAddrViews_payload : (s.latchAddrViews).payload = s.payload := rfl
@[simp] theorem State.latchAddrViews_vlanInfo : (s.latchAddrViews).vlanInfo = s.vlanInfo := rfl
@[simp] theorem State.latchAddrViews_addrViews :
    (s.latchAddrViews).addrViews = ⟨0#8, 6#8, 6#8, 6#8⟩ := rfl
@[simp] theorem State.latchAddrViews_config : (s.latchAddrViews).config = s.config := rfl
@[simp] theorem State.latchAddrViews_vlanTag : (s.latchAddrViews).vlanTag = s.vlanTag := rfl
@[simp] theorem State.latchAddrViews_arp : (s.latchAddrViews).arp = s.arp := rfl
@[simp] theorem State.latchAddrViews_ip : (s.latchAddrViews).ip = s.ip := rfl
@[simp] theorem State.latchAddrViews_ipOpt : (s.latchAddrViews).ipOpt = s.ipOpt := rfl
@[simp] theorem State.latchAddrViews_frameBuf : (s.latchAddrViews).frameBuf = s.frameBuf := rfl
@[simp] theorem State.latchAddrViews_dsUnit : (s.latchAddrViews).dsUnit = s.dsUnit := rfl
@[simp] theorem State.latchAddrViews_bufEpoch : (s.latchAddrViews).bufEpoch = s.bufEpoch := rfl
@[simp] theorem State.latchAddrViews_units : (s.latchAddrViews).units = s.units := rfl
@[simp] theorem State.latchAddrViews_reply : (s.latchAddrViews).reply = s.reply := rfl
@[simp] theorem State.latchAddrViews_moves : (s.latchAddrViews).moves = s.moves := rfl

/-! ### setCode -/

@[simp] theorem State.setCode_state (c : Half) : (s.setCode c).state = s.state := rfl
@[simp] theorem State.setCode_off (c : Half) : (s.setCode c).off = s.off := rfl
@[simp] theorem State.setCode_lenL (c : Half) : (s.setCode c).lenL = s.lenL := rfl
@[simp] theorem State.setCode_modeL (c : Half) : (s.setCode c).modeL = s.modeL := rfl
@[simp] theorem State.setCode_code (c : Half) : (s.setCode c).code = c := rfl
@[simp] theorem State.setCode_ds (c : Half) : (s.setCode c).ds = s.ds := rfl
@[simp] theorem State.setCode_ctrlMode (c : Half) : (s.setCode c).ctrlMode = s.ctrlMode := rfl
@[simp] theorem State.setCode_status (c : Half) : (s.setCode c).status = s.status := rfl
@[simp] theorem State.setCode_frameLen (c : Half) : (s.setCode c).frameLen = s.frameLen := rfl
@[simp] theorem State.setCode_etherType (c : Half) : (s.setCode c).etherType = s.etherType := rfl
@[simp] theorem State.setCode_payload (c : Half) : (s.setCode c).payload = s.payload := rfl
@[simp] theorem State.setCode_vlanInfo (c : Half) : (s.setCode c).vlanInfo = s.vlanInfo := rfl
@[simp] theorem State.setCode_addrViews (c : Half) : (s.setCode c).addrViews = s.addrViews := rfl
@[simp] theorem State.setCode_config (c : Half) : (s.setCode c).config = s.config := rfl
@[simp] theorem State.setCode_vlanTag (c : Half) : (s.setCode c).vlanTag = s.vlanTag := rfl
@[simp] theorem State.setCode_arp (c : Half) : (s.setCode c).arp = s.arp := rfl
@[simp] theorem State.setCode_ip (c : Half) : (s.setCode c).ip = s.ip := rfl
@[simp] theorem State.setCode_ipOpt (c : Half) : (s.setCode c).ipOpt = s.ipOpt := rfl
@[simp] theorem State.setCode_frameBuf (c : Half) : (s.setCode c).frameBuf = s.frameBuf := rfl
@[simp] theorem State.setCode_dsUnit (c : Half) : (s.setCode c).dsUnit = s.dsUnit := rfl
@[simp] theorem State.setCode_bufEpoch (c : Half) : (s.setCode c).bufEpoch = s.bufEpoch := rfl
@[simp] theorem State.setCode_units (c : Half) : (s.setCode c).units = s.units := rfl
@[simp] theorem State.setCode_reply (c : Half) : (s.setCode c).reply = s.reply := rfl
@[simp] theorem State.setCode_moves (c : Half) : (s.setCode c).moves = s.moves := rfl

/-! ### pushTag -/

@[simp] theorem State.pushTag_state (v : Half) : (s.pushTag v).state = StateCode.tagPeek := rfl
@[simp] theorem State.pushTag_off (v : Half) : (s.pushTag v).off = half (s.off.toNat + 4) := rfl
@[simp] theorem State.pushTag_lenL (v : Half) : (s.pushTag v).lenL = s.lenL := rfl
@[simp] theorem State.pushTag_modeL (v : Half) : (s.pushTag v).modeL = s.modeL := rfl
@[simp] theorem State.pushTag_code (v : Half) : (s.pushTag v).code = s.code := rfl
@[simp] theorem State.pushTag_ds (v : Half) : (s.pushTag v).ds = s.ds := rfl
@[simp] theorem State.pushTag_ctrlMode (v : Half) : (s.pushTag v).ctrlMode = s.ctrlMode := rfl
@[simp] theorem State.pushTag_status (v : Half) : (s.pushTag v).status = s.status := rfl
@[simp] theorem State.pushTag_frameLen (v : Half) : (s.pushTag v).frameLen = s.frameLen := rfl
@[simp] theorem State.pushTag_etherType (v : Half) : (s.pushTag v).etherType = s.etherType := rfl
@[simp] theorem State.pushTag_payload (v : Half) : (s.pushTag v).payload = s.payload := rfl
@[simp] theorem State.pushTag_vlanInfo (v : Half) :
    (s.pushTag v).vlanInfo = ⟨half (s.vlanInfo.count.toNat + 1), half (4 * (s.vlanInfo.count.toNat + 1))⟩ := rfl
@[simp] theorem State.pushTag_addrViews (v : Half) : (s.pushTag v).addrViews = s.addrViews := rfl
@[simp] theorem State.pushTag_config (v : Half) : (s.pushTag v).config = s.config := rfl
@[simp] theorem State.pushTag_vlanTag (v : Half) :
    (s.pushTag v).vlanTag = arrayWrite s.vlanTag s.vlanInfo.count.toNat v := rfl
@[simp] theorem State.pushTag_arp (v : Half) : (s.pushTag v).arp = s.arp := rfl
@[simp] theorem State.pushTag_ip (v : Half) : (s.pushTag v).ip = s.ip := rfl
@[simp] theorem State.pushTag_ipOpt (v : Half) : (s.pushTag v).ipOpt = s.ipOpt := rfl
@[simp] theorem State.pushTag_frameBuf (v : Half) : (s.pushTag v).frameBuf = s.frameBuf := rfl
@[simp] theorem State.pushTag_dsUnit (v : Half) : (s.pushTag v).dsUnit = s.dsUnit := rfl
@[simp] theorem State.pushTag_bufEpoch (v : Half) : (s.pushTag v).bufEpoch = s.bufEpoch := rfl
@[simp] theorem State.pushTag_units (v : Half) : (s.pushTag v).units = s.units := rfl
@[simp] theorem State.pushTag_reply (v : Half) : (s.pushTag v).reply = s.reply := rfl
@[simp] theorem State.pushTag_moves (v : Half) : (s.pushTag v).moves = s.moves := rfl

/-! ### latchEtherType -/

@[simp] theorem State.latchEtherType_state : (s.latchEtherType).state = StateCode.dispatch := rfl
@[simp] theorem State.latchEtherType_off : (s.latchEtherType).off = half (s.off.toNat + 2) := rfl
@[simp] theorem State.latchEtherType_lenL : (s.latchEtherType).lenL = s.lenL := rfl
@[simp] theorem State.latchEtherType_modeL : (s.latchEtherType).modeL = s.modeL := rfl
@[simp] theorem State.latchEtherType_code : (s.latchEtherType).code = s.code := rfl
@[simp] theorem State.latchEtherType_ds : (s.latchEtherType).ds = s.ds := rfl
@[simp] theorem State.latchEtherType_ctrlMode : (s.latchEtherType).ctrlMode = s.ctrlMode := rfl
@[simp] theorem State.latchEtherType_status : (s.latchEtherType).status = s.status := rfl
@[simp] theorem State.latchEtherType_frameLen : (s.latchEtherType).frameLen = s.frameLen := rfl
@[simp] theorem State.latchEtherType_etherType :
    (s.latchEtherType).etherType = ⟨s.code, s.off⟩ := rfl
@[simp] theorem State.latchEtherType_payload :
    (s.latchEtherType).payload = ⟨half (s.off.toNat + 2), half (s.lenL.toNat - (s.off.toNat + 2))⟩ := rfl
@[simp] theorem State.latchEtherType_vlanInfo : (s.latchEtherType).vlanInfo = s.vlanInfo := rfl
@[simp] theorem State.latchEtherType_addrViews : (s.latchEtherType).addrViews = s.addrViews := rfl
@[simp] theorem State.latchEtherType_config : (s.latchEtherType).config = s.config := rfl
@[simp] theorem State.latchEtherType_vlanTag : (s.latchEtherType).vlanTag = s.vlanTag := rfl
@[simp] theorem State.latchEtherType_arp : (s.latchEtherType).arp = s.arp := rfl
@[simp] theorem State.latchEtherType_ip : (s.latchEtherType).ip = s.ip := rfl
@[simp] theorem State.latchEtherType_ipOpt : (s.latchEtherType).ipOpt = s.ipOpt := rfl
@[simp] theorem State.latchEtherType_frameBuf : (s.latchEtherType).frameBuf = s.frameBuf := rfl
@[simp] theorem State.latchEtherType_dsUnit : (s.latchEtherType).dsUnit = s.dsUnit := rfl
@[simp] theorem State.latchEtherType_bufEpoch : (s.latchEtherType).bufEpoch = s.bufEpoch := rfl
@[simp] theorem State.latchEtherType_units : (s.latchEtherType).units = s.units := rfl
@[simp] theorem State.latchEtherType_reply : (s.latchEtherType).reply = s.reply := rfl
@[simp] theorem State.latchEtherType_moves : (s.latchEtherType).moves = s.moves := rfl

/-! ### setClass -/

@[simp] theorem State.setClass_state (c : FrameClass) : (s.setClass c).state = s.state := rfl
@[simp] theorem State.setClass_off (c : FrameClass) : (s.setClass c).off = s.off := rfl
@[simp] theorem State.setClass_lenL (c : FrameClass) : (s.setClass c).lenL = s.lenL := rfl
@[simp] theorem State.setClass_modeL (c : FrameClass) : (s.setClass c).modeL = s.modeL := rfl
@[simp] theorem State.setClass_code (c : FrameClass) : (s.setClass c).code = s.code := rfl
@[simp] theorem State.setClass_ds (c : FrameClass) : (s.setClass c).ds = s.ds := rfl
@[simp] theorem State.setClass_ctrlMode (c : FrameClass) :
    (s.setClass c).ctrlMode = s.ctrlMode := rfl
@[simp] theorem State.setClass_status (c : FrameClass) :
    (s.setClass c).status = s.status.withClass c := rfl
@[simp] theorem State.setClass_frameLen (c : FrameClass) :
    (s.setClass c).frameLen = s.frameLen := rfl
@[simp] theorem State.setClass_etherType (c : FrameClass) :
    (s.setClass c).etherType = s.etherType := rfl
@[simp] theorem State.setClass_payload (c : FrameClass) : (s.setClass c).payload = s.payload := rfl
@[simp] theorem State.setClass_vlanInfo (c : FrameClass) :
    (s.setClass c).vlanInfo = s.vlanInfo := rfl
@[simp] theorem State.setClass_addrViews (c : FrameClass) :
    (s.setClass c).addrViews = s.addrViews := rfl
@[simp] theorem State.setClass_config (c : FrameClass) : (s.setClass c).config = s.config := rfl
@[simp] theorem State.setClass_vlanTag (c : FrameClass) : (s.setClass c).vlanTag = s.vlanTag := rfl
@[simp] theorem State.setClass_arp (c : FrameClass) : (s.setClass c).arp = s.arp := rfl
@[simp] theorem State.setClass_ip (c : FrameClass) : (s.setClass c).ip = s.ip := rfl
@[simp] theorem State.setClass_ipOpt (c : FrameClass) : (s.setClass c).ipOpt = s.ipOpt := rfl
@[simp] theorem State.setClass_frameBuf (c : FrameClass) :
    (s.setClass c).frameBuf = s.frameBuf := rfl
@[simp] theorem State.setClass_dsUnit (c : FrameClass) : (s.setClass c).dsUnit = s.dsUnit := rfl
@[simp] theorem State.setClass_bufEpoch (c : FrameClass) :
    (s.setClass c).bufEpoch = s.bufEpoch := rfl
@[simp] theorem State.setClass_units (c : FrameClass) : (s.setClass c).units = s.units := rfl
@[simp] theorem State.setClass_reply (c : FrameClass) : (s.setClass c).reply = s.reply := rfl
@[simp] theorem State.setClass_moves (c : FrameClass) : (s.setClass c).moves = s.moves := rfl

/-! ### setErrDs -/

@[simp] theorem State.setErrDs_state : (s.setErrDs).state = s.state := rfl
@[simp] theorem State.setErrDs_off : (s.setErrDs).off = s.off := rfl
@[simp] theorem State.setErrDs_lenL : (s.setErrDs).lenL = s.lenL := rfl
@[simp] theorem State.setErrDs_modeL : (s.setErrDs).modeL = s.modeL := rfl
@[simp] theorem State.setErrDs_code : (s.setErrDs).code = s.code := rfl
@[simp] theorem State.setErrDs_ds : (s.setErrDs).ds = s.ds := rfl
@[simp] theorem State.setErrDs_ctrlMode : (s.setErrDs).ctrlMode = s.ctrlMode := rfl
@[simp] theorem State.setErrDs_status : (s.setErrDs).status = s.status.withErrDs := rfl
@[simp] theorem State.setErrDs_frameLen : (s.setErrDs).frameLen = s.frameLen := rfl
@[simp] theorem State.setErrDs_etherType : (s.setErrDs).etherType = s.etherType := rfl
@[simp] theorem State.setErrDs_payload : (s.setErrDs).payload = s.payload := rfl
@[simp] theorem State.setErrDs_vlanInfo : (s.setErrDs).vlanInfo = s.vlanInfo := rfl
@[simp] theorem State.setErrDs_addrViews : (s.setErrDs).addrViews = s.addrViews := rfl
@[simp] theorem State.setErrDs_config : (s.setErrDs).config = s.config := rfl
@[simp] theorem State.setErrDs_vlanTag : (s.setErrDs).vlanTag = s.vlanTag := rfl
@[simp] theorem State.setErrDs_arp : (s.setErrDs).arp = s.arp := rfl
@[simp] theorem State.setErrDs_ip : (s.setErrDs).ip = s.ip := rfl
@[simp] theorem State.setErrDs_ipOpt : (s.setErrDs).ipOpt = s.ipOpt := rfl
@[simp] theorem State.setErrDs_frameBuf : (s.setErrDs).frameBuf = s.frameBuf := rfl
@[simp] theorem State.setErrDs_dsUnit : (s.setErrDs).dsUnit = s.dsUnit := rfl
@[simp] theorem State.setErrDs_bufEpoch : (s.setErrDs).bufEpoch = s.bufEpoch := rfl
@[simp] theorem State.setErrDs_units : (s.setErrDs).units = s.units := rfl
@[simp] theorem State.setErrDs_reply : (s.setErrDs).reply = s.reply := rfl
@[simp] theorem State.setErrDs_moves : (s.setErrDs).moves = s.moves := rfl

/-! ### issue -/

@[simp] theorem State.issue_state (c : DsClass) : (s.issue c).state = StateCode.dsWait := rfl
@[simp] theorem State.issue_off (c : DsClass) : (s.issue c).off = s.off := rfl
@[simp] theorem State.issue_lenL (c : DsClass) : (s.issue c).lenL = s.lenL := rfl
@[simp] theorem State.issue_modeL (c : DsClass) : (s.issue c).modeL = s.modeL := rfl
@[simp] theorem State.issue_code (c : DsClass) : (s.issue c).code = s.code := rfl
@[simp] theorem State.issue_ds (c : DsClass) :
    (s.issue c).ds = ⟨true, c, s.payload.off, s.payload.len, false, s.ds.resp⟩ := rfl
@[simp] theorem State.issue_ctrlMode (c : DsClass) : (s.issue c).ctrlMode = s.ctrlMode := rfl
@[simp] theorem State.issue_status (c : DsClass) : (s.issue c).status = s.status := rfl
@[simp] theorem State.issue_frameLen (c : DsClass) : (s.issue c).frameLen = s.frameLen := rfl
@[simp] theorem State.issue_etherType (c : DsClass) : (s.issue c).etherType = s.etherType := rfl
@[simp] theorem State.issue_payload (c : DsClass) : (s.issue c).payload = s.payload := rfl
@[simp] theorem State.issue_vlanInfo (c : DsClass) : (s.issue c).vlanInfo = s.vlanInfo := rfl
@[simp] theorem State.issue_addrViews (c : DsClass) : (s.issue c).addrViews = s.addrViews := rfl
@[simp] theorem State.issue_config (c : DsClass) : (s.issue c).config = s.config := rfl
@[simp] theorem State.issue_vlanTag (c : DsClass) : (s.issue c).vlanTag = s.vlanTag := rfl
@[simp] theorem State.issue_arp (c : DsClass) : (s.issue c).arp = s.arp := rfl
@[simp] theorem State.issue_ip (c : DsClass) : (s.issue c).ip = s.ip := rfl
@[simp] theorem State.issue_ipOpt (c : DsClass) : (s.issue c).ipOpt = s.ipOpt := rfl
@[simp] theorem State.issue_frameBuf (c : DsClass) : (s.issue c).frameBuf = s.frameBuf := rfl
@[simp] theorem State.issue_dsUnit (c : DsClass) : (s.issue c).dsUnit = s.dsUnit := rfl
@[simp] theorem State.issue_bufEpoch (c : DsClass) : (s.issue c).bufEpoch = s.bufEpoch := rfl
@[simp] theorem State.issue_units (c : DsClass) : (s.issue c).units = s.units := rfl
@[simp] theorem State.issue_reply (c : DsClass) : (s.issue c).reply = s.reply := rfl
@[simp] theorem State.issue_moves (c : DsClass) : (s.issue c).moves = s.moves := rfl

/-! ### clearRequest -/

@[simp] theorem State.clearRequest_state : (s.clearRequest).state = s.state := rfl
@[simp] theorem State.clearRequest_off : (s.clearRequest).off = s.off := rfl
@[simp] theorem State.clearRequest_lenL : (s.clearRequest).lenL = s.lenL := rfl
@[simp] theorem State.clearRequest_modeL : (s.clearRequest).modeL = s.modeL := rfl
@[simp] theorem State.clearRequest_code : (s.clearRequest).code = s.code := rfl
@[simp] theorem State.clearRequest_ds :
    (s.clearRequest).ds = ⟨false, s.ds.cls, s.ds.base, s.ds.len, false, s.ds.resp⟩ := rfl
@[simp] theorem State.clearRequest_ctrlMode : (s.clearRequest).ctrlMode = s.ctrlMode := rfl
@[simp] theorem State.clearRequest_status : (s.clearRequest).status = s.status := rfl
@[simp] theorem State.clearRequest_frameLen : (s.clearRequest).frameLen = s.frameLen := rfl
@[simp] theorem State.clearRequest_etherType : (s.clearRequest).etherType = s.etherType := rfl
@[simp] theorem State.clearRequest_payload : (s.clearRequest).payload = s.payload := rfl
@[simp] theorem State.clearRequest_vlanInfo : (s.clearRequest).vlanInfo = s.vlanInfo := rfl
@[simp] theorem State.clearRequest_addrViews : (s.clearRequest).addrViews = s.addrViews := rfl
@[simp] theorem State.clearRequest_config : (s.clearRequest).config = s.config := rfl
@[simp] theorem State.clearRequest_vlanTag : (s.clearRequest).vlanTag = s.vlanTag := rfl
@[simp] theorem State.clearRequest_arp : (s.clearRequest).arp = s.arp := rfl
@[simp] theorem State.clearRequest_ip : (s.clearRequest).ip = s.ip := rfl
@[simp] theorem State.clearRequest_ipOpt : (s.clearRequest).ipOpt = s.ipOpt := rfl
@[simp] theorem State.clearRequest_frameBuf : (s.clearRequest).frameBuf = s.frameBuf := rfl
@[simp] theorem State.clearRequest_dsUnit : (s.clearRequest).dsUnit = s.dsUnit := rfl
@[simp] theorem State.clearRequest_bufEpoch : (s.clearRequest).bufEpoch = s.bufEpoch := rfl
@[simp] theorem State.clearRequest_units : (s.clearRequest).units = s.units := rfl
@[simp] theorem State.clearRequest_reply : (s.clearRequest).reply = s.reply := rfl
@[simp] theorem State.clearRequest_moves : (s.clearRequest).moves = s.moves := rfl

/-! ### answer -/

@[simp] theorem State.answer_state (r : BitVec 4) : (s.answer r).state = s.state := rfl
@[simp] theorem State.answer_off (r : BitVec 4) : (s.answer r).off = s.off := rfl
@[simp] theorem State.answer_lenL (r : BitVec 4) : (s.answer r).lenL = s.lenL := rfl
@[simp] theorem State.answer_modeL (r : BitVec 4) : (s.answer r).modeL = s.modeL := rfl
@[simp] theorem State.answer_code (r : BitVec 4) : (s.answer r).code = s.code := rfl
@[simp] theorem State.answer_ds (r : BitVec 4) :
    (s.answer r).ds = ⟨s.ds.req, s.ds.cls, s.ds.base, s.ds.len, true, r⟩ := rfl
@[simp] theorem State.answer_ctrlMode (r : BitVec 4) : (s.answer r).ctrlMode = s.ctrlMode := rfl
@[simp] theorem State.answer_status (r : BitVec 4) : (s.answer r).status = s.status := rfl
@[simp] theorem State.answer_frameLen (r : BitVec 4) : (s.answer r).frameLen = s.frameLen := rfl
@[simp] theorem State.answer_etherType (r : BitVec 4) : (s.answer r).etherType = s.etherType := rfl
@[simp] theorem State.answer_payload (r : BitVec 4) : (s.answer r).payload = s.payload := rfl
@[simp] theorem State.answer_vlanInfo (r : BitVec 4) : (s.answer r).vlanInfo = s.vlanInfo := rfl
@[simp] theorem State.answer_addrViews (r : BitVec 4) : (s.answer r).addrViews = s.addrViews := rfl
@[simp] theorem State.answer_config (r : BitVec 4) : (s.answer r).config = s.config := rfl
@[simp] theorem State.answer_vlanTag (r : BitVec 4) : (s.answer r).vlanTag = s.vlanTag := rfl
@[simp] theorem State.answer_arp (r : BitVec 4) : (s.answer r).arp = s.arp := rfl
@[simp] theorem State.answer_ip (r : BitVec 4) : (s.answer r).ip = s.ip := rfl
@[simp] theorem State.answer_ipOpt (r : BitVec 4) : (s.answer r).ipOpt = s.ipOpt := rfl
@[simp] theorem State.answer_frameBuf (r : BitVec 4) : (s.answer r).frameBuf = s.frameBuf := rfl
@[simp] theorem State.answer_dsUnit (r : BitVec 4) : (s.answer r).dsUnit = s.dsUnit := rfl
@[simp] theorem State.answer_bufEpoch (r : BitVec 4) : (s.answer r).bufEpoch = s.bufEpoch := rfl
@[simp] theorem State.answer_units (r : BitVec 4) : (s.answer r).units = s.units := rfl
@[simp] theorem State.answer_reply (r : BitVec 4) : (s.answer r).reply = s.reply := rfl
@[simp] theorem State.answer_moves (r : BitVec 4) : (s.answer r).moves = s.moves := rfl

/-! ### setArp -/

@[simp] theorem State.setArp_state (w : ArpWindow) : (s.setArp w).state = s.state := rfl
@[simp] theorem State.setArp_off (w : ArpWindow) : (s.setArp w).off = s.off := rfl
@[simp] theorem State.setArp_lenL (w : ArpWindow) : (s.setArp w).lenL = s.lenL := rfl
@[simp] theorem State.setArp_modeL (w : ArpWindow) : (s.setArp w).modeL = s.modeL := rfl
@[simp] theorem State.setArp_code (w : ArpWindow) : (s.setArp w).code = s.code := rfl
@[simp] theorem State.setArp_ds (w : ArpWindow) : (s.setArp w).ds = s.ds := rfl
@[simp] theorem State.setArp_ctrlMode (w : ArpWindow) : (s.setArp w).ctrlMode = s.ctrlMode := rfl
@[simp] theorem State.setArp_status (w : ArpWindow) : (s.setArp w).status = s.status := rfl
@[simp] theorem State.setArp_frameLen (w : ArpWindow) : (s.setArp w).frameLen = s.frameLen := rfl
@[simp] theorem State.setArp_etherType (w : ArpWindow) : (s.setArp w).etherType = s.etherType := rfl
@[simp] theorem State.setArp_payload (w : ArpWindow) : (s.setArp w).payload = s.payload := rfl
@[simp] theorem State.setArp_vlanInfo (w : ArpWindow) : (s.setArp w).vlanInfo = s.vlanInfo := rfl
@[simp] theorem State.setArp_addrViews (w : ArpWindow) : (s.setArp w).addrViews = s.addrViews := rfl
@[simp] theorem State.setArp_config (w : ArpWindow) : (s.setArp w).config = s.config := rfl
@[simp] theorem State.setArp_vlanTag (w : ArpWindow) : (s.setArp w).vlanTag = s.vlanTag := rfl
@[simp] theorem State.setArp_arp (w : ArpWindow) : (s.setArp w).arp = w := rfl
@[simp] theorem State.setArp_ip (w : ArpWindow) : (s.setArp w).ip = s.ip := rfl
@[simp] theorem State.setArp_ipOpt (w : ArpWindow) : (s.setArp w).ipOpt = s.ipOpt := rfl
@[simp] theorem State.setArp_frameBuf (w : ArpWindow) : (s.setArp w).frameBuf = s.frameBuf := rfl
@[simp] theorem State.setArp_dsUnit (w : ArpWindow) : (s.setArp w).dsUnit = s.dsUnit := rfl
@[simp] theorem State.setArp_bufEpoch (w : ArpWindow) : (s.setArp w).bufEpoch = s.bufEpoch := rfl
@[simp] theorem State.setArp_units (w : ArpWindow) : (s.setArp w).units = s.units := rfl
@[simp] theorem State.setArp_reply (w : ArpWindow) : (s.setArp w).reply = s.reply := rfl
@[simp] theorem State.setArp_moves (w : ArpWindow) : (s.setArp w).moves = s.moves := rfl

/-! ### setIp -/

@[simp] theorem State.setIp_state (w : IpWindow) (f : List (Nat × Word)) :
    (s.setIp w f).state = s.state := rfl
@[simp] theorem State.setIp_off (w : IpWindow) (f : List (Nat × Word)) :
    (s.setIp w f).off = s.off := rfl
@[simp] theorem State.setIp_lenL (w : IpWindow) (f : List (Nat × Word)) :
    (s.setIp w f).lenL = s.lenL := rfl
@[simp] theorem State.setIp_modeL (w : IpWindow) (f : List (Nat × Word)) :
    (s.setIp w f).modeL = s.modeL := rfl
@[simp] theorem State.setIp_code (w : IpWindow) (f : List (Nat × Word)) :
    (s.setIp w f).code = s.code := rfl
@[simp] theorem State.setIp_ds (w : IpWindow) (f : List (Nat × Word)) :
    (s.setIp w f).ds = s.ds := rfl
@[simp] theorem State.setIp_ctrlMode (w : IpWindow) (f : List (Nat × Word)) :
    (s.setIp w f).ctrlMode = s.ctrlMode := rfl
@[simp] theorem State.setIp_status (w : IpWindow) (f : List (Nat × Word)) :
    (s.setIp w f).status = s.status := rfl
@[simp] theorem State.setIp_frameLen (w : IpWindow) (f : List (Nat × Word)) :
    (s.setIp w f).frameLen = s.frameLen := rfl
@[simp] theorem State.setIp_etherType (w : IpWindow) (f : List (Nat × Word)) :
    (s.setIp w f).etherType = s.etherType := rfl
@[simp] theorem State.setIp_payload (w : IpWindow) (f : List (Nat × Word)) :
    (s.setIp w f).payload = s.payload := rfl
@[simp] theorem State.setIp_vlanInfo (w : IpWindow) (f : List (Nat × Word)) :
    (s.setIp w f).vlanInfo = s.vlanInfo := rfl
@[simp] theorem State.setIp_addrViews (w : IpWindow) (f : List (Nat × Word)) :
    (s.setIp w f).addrViews = s.addrViews := rfl
@[simp] theorem State.setIp_config (w : IpWindow) (f : List (Nat × Word)) :
    (s.setIp w f).config = s.config := rfl
@[simp] theorem State.setIp_vlanTag (w : IpWindow) (f : List (Nat × Word)) :
    (s.setIp w f).vlanTag = s.vlanTag := rfl
@[simp] theorem State.setIp_arp (w : IpWindow) (f : List (Nat × Word)) :
    (s.setIp w f).arp = s.arp := rfl
@[simp] theorem State.setIp_ip (w : IpWindow) (f : List (Nat × Word)) : (s.setIp w f).ip = w := rfl
@[simp] theorem State.setIp_ipOpt (w : IpWindow) (f : List (Nat × Word)) :
    (s.setIp w f).ipOpt = f := rfl
@[simp] theorem State.setIp_frameBuf (w : IpWindow) (f : List (Nat × Word)) :
    (s.setIp w f).frameBuf = s.frameBuf := rfl
@[simp] theorem State.setIp_dsUnit (w : IpWindow) (f : List (Nat × Word)) :
    (s.setIp w f).dsUnit = s.dsUnit := rfl
@[simp] theorem State.setIp_bufEpoch (w : IpWindow) (f : List (Nat × Word)) :
    (s.setIp w f).bufEpoch = s.bufEpoch := rfl
@[simp] theorem State.setIp_units (w : IpWindow) (f : List (Nat × Word)) :
    (s.setIp w f).units = s.units := rfl
@[simp] theorem State.setIp_reply (w : IpWindow) (f : List (Nat × Word)) :
    (s.setIp w f).reply = s.reply := rfl
@[simp] theorem State.setIp_moves (w : IpWindow) (f : List (Nat × Word)) :
    (s.setIp w f).moves = s.moves := rfl

/-! ### answerClass -/

@[simp] theorem State.answerClass_state (c : EtherClass) : (s.answerClass c).state = s.state := rfl
@[simp] theorem State.answerClass_off (c : EtherClass) : (s.answerClass c).off = s.off := rfl
@[simp] theorem State.answerClass_lenL (c : EtherClass) : (s.answerClass c).lenL = s.lenL := rfl
@[simp] theorem State.answerClass_modeL (c : EtherClass) : (s.answerClass c).modeL = s.modeL := rfl
@[simp] theorem State.answerClass_code (c : EtherClass) : (s.answerClass c).code = s.code := rfl
@[simp] theorem State.answerClass_ds (c : EtherClass) : (s.answerClass c).ds = s.ds := rfl
@[simp] theorem State.answerClass_ctrlMode (c : EtherClass) :
    (s.answerClass c).ctrlMode = s.ctrlMode := rfl
@[simp] theorem State.answerClass_status (c : EtherClass) :
    (s.answerClass c).status = s.status := rfl
@[simp] theorem State.answerClass_frameLen (c : EtherClass) :
    (s.answerClass c).frameLen = s.frameLen := rfl
@[simp] theorem State.answerClass_etherType (c : EtherClass) :
    (s.answerClass c).etherType = s.etherType := rfl
@[simp] theorem State.answerClass_payload (c : EtherClass) :
    (s.answerClass c).payload = s.payload := rfl
@[simp] theorem State.answerClass_vlanInfo (c : EtherClass) :
    (s.answerClass c).vlanInfo = s.vlanInfo := rfl
@[simp] theorem State.answerClass_addrViews (c : EtherClass) :
    (s.answerClass c).addrViews = s.addrViews := rfl
@[simp] theorem State.answerClass_config (c : EtherClass) :
    (s.answerClass c).config = s.config := rfl
@[simp] theorem State.answerClass_vlanTag (c : EtherClass) :
    (s.answerClass c).vlanTag = s.vlanTag := rfl
@[simp] theorem State.answerClass_arp (c : EtherClass) : (s.answerClass c).arp = s.arp := rfl
@[simp] theorem State.answerClass_ip (c : EtherClass) : (s.answerClass c).ip = s.ip := rfl
@[simp] theorem State.answerClass_ipOpt (c : EtherClass) : (s.answerClass c).ipOpt = s.ipOpt := rfl
@[simp] theorem State.answerClass_frameBuf (c : EtherClass) :
    (s.answerClass c).frameBuf = s.frameBuf := rfl
@[simp] theorem State.answerClass_dsUnit (c : EtherClass) :
    (s.answerClass c).dsUnit = s.dsUnit := rfl
@[simp] theorem State.answerClass_bufEpoch (c : EtherClass) :
    (s.answerClass c).bufEpoch = s.bufEpoch := rfl
@[simp] theorem State.answerClass_units (c : EtherClass) :
    (s.answerClass c).units = ⟨c, s.units.widths, s.units.walk⟩ := rfl
@[simp] theorem State.answerClass_reply (c : EtherClass) : (s.answerClass c).reply = s.reply := rfl
@[simp] theorem State.answerClass_moves (c : EtherClass) : (s.answerClass c).moves = s.moves := rfl

/-! ### answerWidths -/

@[simp] theorem State.answerWidths_state (w : AddrWidths) :
    (s.answerWidths w).state = s.state := rfl
@[simp] theorem State.answerWidths_off (w : AddrWidths) : (s.answerWidths w).off = s.off := rfl
@[simp] theorem State.answerWidths_lenL (w : AddrWidths) : (s.answerWidths w).lenL = s.lenL := rfl
@[simp] theorem State.answerWidths_modeL (w : AddrWidths) :
    (s.answerWidths w).modeL = s.modeL := rfl
@[simp] theorem State.answerWidths_code (w : AddrWidths) : (s.answerWidths w).code = s.code := rfl
@[simp] theorem State.answerWidths_ds (w : AddrWidths) : (s.answerWidths w).ds = s.ds := rfl
@[simp] theorem State.answerWidths_ctrlMode (w : AddrWidths) :
    (s.answerWidths w).ctrlMode = s.ctrlMode := rfl
@[simp] theorem State.answerWidths_status (w : AddrWidths) :
    (s.answerWidths w).status = s.status := rfl
@[simp] theorem State.answerWidths_frameLen (w : AddrWidths) :
    (s.answerWidths w).frameLen = s.frameLen := rfl
@[simp] theorem State.answerWidths_etherType (w : AddrWidths) :
    (s.answerWidths w).etherType = s.etherType := rfl
@[simp] theorem State.answerWidths_payload (w : AddrWidths) :
    (s.answerWidths w).payload = s.payload := rfl
@[simp] theorem State.answerWidths_vlanInfo (w : AddrWidths) :
    (s.answerWidths w).vlanInfo = s.vlanInfo := rfl
@[simp] theorem State.answerWidths_addrViews (w : AddrWidths) :
    (s.answerWidths w).addrViews = s.addrViews := rfl
@[simp] theorem State.answerWidths_config (w : AddrWidths) :
    (s.answerWidths w).config = s.config := rfl
@[simp] theorem State.answerWidths_vlanTag (w : AddrWidths) :
    (s.answerWidths w).vlanTag = s.vlanTag := rfl
@[simp] theorem State.answerWidths_arp (w : AddrWidths) : (s.answerWidths w).arp = s.arp := rfl
@[simp] theorem State.answerWidths_ip (w : AddrWidths) : (s.answerWidths w).ip = s.ip := rfl
@[simp] theorem State.answerWidths_ipOpt (w : AddrWidths) :
    (s.answerWidths w).ipOpt = s.ipOpt := rfl
@[simp] theorem State.answerWidths_frameBuf (w : AddrWidths) :
    (s.answerWidths w).frameBuf = s.frameBuf := rfl
@[simp] theorem State.answerWidths_dsUnit (w : AddrWidths) :
    (s.answerWidths w).dsUnit = s.dsUnit := rfl
@[simp] theorem State.answerWidths_bufEpoch (w : AddrWidths) :
    (s.answerWidths w).bufEpoch = s.bufEpoch := rfl
@[simp] theorem State.answerWidths_units (w : AddrWidths) :
    (s.answerWidths w).units = ⟨s.units.cls, w, s.units.walk⟩ := rfl
@[simp] theorem State.answerWidths_reply (w : AddrWidths) :
    (s.answerWidths w).reply = s.reply := rfl
@[simp] theorem State.answerWidths_moves (w : AddrWidths) :
    (s.answerWidths w).moves = s.moves := rfl

/-! ### setWalk -/

@[simp] theorem State.setWalk_state (w : OptWalk) : (s.setWalk w).state = s.state := rfl
@[simp] theorem State.setWalk_off (w : OptWalk) : (s.setWalk w).off = s.off := rfl
@[simp] theorem State.setWalk_lenL (w : OptWalk) : (s.setWalk w).lenL = s.lenL := rfl
@[simp] theorem State.setWalk_modeL (w : OptWalk) : (s.setWalk w).modeL = s.modeL := rfl
@[simp] theorem State.setWalk_code (w : OptWalk) : (s.setWalk w).code = s.code := rfl
@[simp] theorem State.setWalk_ds (w : OptWalk) : (s.setWalk w).ds = s.ds := rfl
@[simp] theorem State.setWalk_ctrlMode (w : OptWalk) : (s.setWalk w).ctrlMode = s.ctrlMode := rfl
@[simp] theorem State.setWalk_status (w : OptWalk) : (s.setWalk w).status = s.status := rfl
@[simp] theorem State.setWalk_frameLen (w : OptWalk) : (s.setWalk w).frameLen = s.frameLen := rfl
@[simp] theorem State.setWalk_etherType (w : OptWalk) : (s.setWalk w).etherType = s.etherType := rfl
@[simp] theorem State.setWalk_payload (w : OptWalk) : (s.setWalk w).payload = s.payload := rfl
@[simp] theorem State.setWalk_vlanInfo (w : OptWalk) : (s.setWalk w).vlanInfo = s.vlanInfo := rfl
@[simp] theorem State.setWalk_addrViews (w : OptWalk) : (s.setWalk w).addrViews = s.addrViews := rfl
@[simp] theorem State.setWalk_config (w : OptWalk) : (s.setWalk w).config = s.config := rfl
@[simp] theorem State.setWalk_vlanTag (w : OptWalk) : (s.setWalk w).vlanTag = s.vlanTag := rfl
@[simp] theorem State.setWalk_arp (w : OptWalk) : (s.setWalk w).arp = s.arp := rfl
@[simp] theorem State.setWalk_ip (w : OptWalk) : (s.setWalk w).ip = s.ip := rfl
@[simp] theorem State.setWalk_ipOpt (w : OptWalk) : (s.setWalk w).ipOpt = s.ipOpt := rfl
@[simp] theorem State.setWalk_frameBuf (w : OptWalk) : (s.setWalk w).frameBuf = s.frameBuf := rfl
@[simp] theorem State.setWalk_dsUnit (w : OptWalk) : (s.setWalk w).dsUnit = s.dsUnit := rfl
@[simp] theorem State.setWalk_bufEpoch (w : OptWalk) : (s.setWalk w).bufEpoch = s.bufEpoch := rfl
@[simp] theorem State.setWalk_units (w : OptWalk) :
    (s.setWalk w).units = ⟨s.units.cls, s.units.widths, w⟩ := rfl
@[simp] theorem State.setWalk_reply (w : OptWalk) : (s.setWalk w).reply = s.reply := rfl
@[simp] theorem State.setWalk_moves (w : OptWalk) : (s.setWalk w).moves = s.moves := rfl

/-! ### setReply -/

@[simp] theorem State.setReply_state (r : HostReply) : (s.setReply r).state = s.state := rfl
@[simp] theorem State.setReply_off (r : HostReply) : (s.setReply r).off = s.off := rfl
@[simp] theorem State.setReply_lenL (r : HostReply) : (s.setReply r).lenL = s.lenL := rfl
@[simp] theorem State.setReply_modeL (r : HostReply) : (s.setReply r).modeL = s.modeL := rfl
@[simp] theorem State.setReply_code (r : HostReply) : (s.setReply r).code = s.code := rfl
@[simp] theorem State.setReply_ds (r : HostReply) : (s.setReply r).ds = s.ds := rfl
@[simp] theorem State.setReply_ctrlMode (r : HostReply) :
    (s.setReply r).ctrlMode = s.ctrlMode := rfl
@[simp] theorem State.setReply_status (r : HostReply) : (s.setReply r).status = s.status := rfl
@[simp] theorem State.setReply_frameLen (r : HostReply) :
    (s.setReply r).frameLen = s.frameLen := rfl
@[simp] theorem State.setReply_etherType (r : HostReply) :
    (s.setReply r).etherType = s.etherType := rfl
@[simp] theorem State.setReply_payload (r : HostReply) : (s.setReply r).payload = s.payload := rfl
@[simp] theorem State.setReply_vlanInfo (r : HostReply) :
    (s.setReply r).vlanInfo = s.vlanInfo := rfl
@[simp] theorem State.setReply_addrViews (r : HostReply) :
    (s.setReply r).addrViews = s.addrViews := rfl
@[simp] theorem State.setReply_config (r : HostReply) : (s.setReply r).config = s.config := rfl
@[simp] theorem State.setReply_vlanTag (r : HostReply) : (s.setReply r).vlanTag = s.vlanTag := rfl
@[simp] theorem State.setReply_arp (r : HostReply) : (s.setReply r).arp = s.arp := rfl
@[simp] theorem State.setReply_ip (r : HostReply) : (s.setReply r).ip = s.ip := rfl
@[simp] theorem State.setReply_ipOpt (r : HostReply) : (s.setReply r).ipOpt = s.ipOpt := rfl
@[simp] theorem State.setReply_frameBuf (r : HostReply) :
    (s.setReply r).frameBuf = s.frameBuf := rfl
@[simp] theorem State.setReply_dsUnit (r : HostReply) : (s.setReply r).dsUnit = s.dsUnit := rfl
@[simp] theorem State.setReply_bufEpoch (r : HostReply) :
    (s.setReply r).bufEpoch = s.bufEpoch := rfl
@[simp] theorem State.setReply_units (r : HostReply) : (s.setReply r).units = s.units := rfl
@[simp] theorem State.setReply_reply (r : HostReply) : (s.setReply r).reply = some r := rfl
@[simp] theorem State.setReply_moves (r : HostReply) : (s.setReply r).moves = s.moves := rfl

/-! ### setMoves -/

@[simp] theorem State.setMoves_state (ms : List Move) : (s.setMoves ms).state = s.state := rfl
@[simp] theorem State.setMoves_off (ms : List Move) : (s.setMoves ms).off = s.off := rfl
@[simp] theorem State.setMoves_lenL (ms : List Move) : (s.setMoves ms).lenL = s.lenL := rfl
@[simp] theorem State.setMoves_modeL (ms : List Move) : (s.setMoves ms).modeL = s.modeL := rfl
@[simp] theorem State.setMoves_code (ms : List Move) : (s.setMoves ms).code = s.code := rfl
@[simp] theorem State.setMoves_ds (ms : List Move) : (s.setMoves ms).ds = s.ds := rfl
@[simp] theorem State.setMoves_ctrlMode (ms : List Move) :
    (s.setMoves ms).ctrlMode = s.ctrlMode := rfl
@[simp] theorem State.setMoves_status (ms : List Move) : (s.setMoves ms).status = s.status := rfl
@[simp] theorem State.setMoves_frameLen (ms : List Move) :
    (s.setMoves ms).frameLen = s.frameLen := rfl
@[simp] theorem State.setMoves_etherType (ms : List Move) :
    (s.setMoves ms).etherType = s.etherType := rfl
@[simp] theorem State.setMoves_payload (ms : List Move) : (s.setMoves ms).payload = s.payload := rfl
@[simp] theorem State.setMoves_vlanInfo (ms : List Move) :
    (s.setMoves ms).vlanInfo = s.vlanInfo := rfl
@[simp] theorem State.setMoves_addrViews (ms : List Move) :
    (s.setMoves ms).addrViews = s.addrViews := rfl
@[simp] theorem State.setMoves_config (ms : List Move) : (s.setMoves ms).config = s.config := rfl
@[simp] theorem State.setMoves_vlanTag (ms : List Move) : (s.setMoves ms).vlanTag = s.vlanTag := rfl
@[simp] theorem State.setMoves_arp (ms : List Move) : (s.setMoves ms).arp = s.arp := rfl
@[simp] theorem State.setMoves_ip (ms : List Move) : (s.setMoves ms).ip = s.ip := rfl
@[simp] theorem State.setMoves_ipOpt (ms : List Move) : (s.setMoves ms).ipOpt = s.ipOpt := rfl
@[simp] theorem State.setMoves_frameBuf (ms : List Move) :
    (s.setMoves ms).frameBuf = s.frameBuf := rfl
@[simp] theorem State.setMoves_dsUnit (ms : List Move) : (s.setMoves ms).dsUnit = s.dsUnit := rfl
@[simp] theorem State.setMoves_bufEpoch (ms : List Move) :
    (s.setMoves ms).bufEpoch = s.bufEpoch := rfl
@[simp] theorem State.setMoves_units (ms : List Move) : (s.setMoves ms).units = s.units := rfl
@[simp] theorem State.setMoves_reply (ms : List Move) : (s.setMoves ms).reply = s.reply := rfl
@[simp] theorem State.setMoves_moves (ms : List Move) : (s.setMoves ms).moves = ms := rfl

/-! ### bufWrite -/

@[simp] theorem State.bufWrite_state (a : Nat) (v : Byte) : (s.bufWrite a v).state = s.state := rfl
@[simp] theorem State.bufWrite_off (a : Nat) (v : Byte) : (s.bufWrite a v).off = s.off := rfl
@[simp] theorem State.bufWrite_lenL (a : Nat) (v : Byte) : (s.bufWrite a v).lenL = s.lenL := rfl
@[simp] theorem State.bufWrite_modeL (a : Nat) (v : Byte) : (s.bufWrite a v).modeL = s.modeL := rfl
@[simp] theorem State.bufWrite_code (a : Nat) (v : Byte) : (s.bufWrite a v).code = s.code := rfl
@[simp] theorem State.bufWrite_ds (a : Nat) (v : Byte) : (s.bufWrite a v).ds = s.ds := rfl
@[simp] theorem State.bufWrite_ctrlMode (a : Nat) (v : Byte) :
    (s.bufWrite a v).ctrlMode = s.ctrlMode := rfl
@[simp] theorem State.bufWrite_status (a : Nat) (v : Byte) :
    (s.bufWrite a v).status = s.status := rfl
@[simp] theorem State.bufWrite_frameLen (a : Nat) (v : Byte) :
    (s.bufWrite a v).frameLen = s.frameLen := rfl
@[simp] theorem State.bufWrite_etherType (a : Nat) (v : Byte) :
    (s.bufWrite a v).etherType = s.etherType := rfl
@[simp] theorem State.bufWrite_payload (a : Nat) (v : Byte) :
    (s.bufWrite a v).payload = s.payload := rfl
@[simp] theorem State.bufWrite_vlanInfo (a : Nat) (v : Byte) :
    (s.bufWrite a v).vlanInfo = s.vlanInfo := rfl
@[simp] theorem State.bufWrite_addrViews (a : Nat) (v : Byte) :
    (s.bufWrite a v).addrViews = s.addrViews := rfl
@[simp] theorem State.bufWrite_config (a : Nat) (v : Byte) :
    (s.bufWrite a v).config = s.config := rfl
@[simp] theorem State.bufWrite_vlanTag (a : Nat) (v : Byte) :
    (s.bufWrite a v).vlanTag = s.vlanTag := rfl
@[simp] theorem State.bufWrite_arp (a : Nat) (v : Byte) : (s.bufWrite a v).arp = s.arp := rfl
@[simp] theorem State.bufWrite_ip (a : Nat) (v : Byte) : (s.bufWrite a v).ip = s.ip := rfl
@[simp] theorem State.bufWrite_ipOpt (a : Nat) (v : Byte) : (s.bufWrite a v).ipOpt = s.ipOpt := rfl
@[simp] theorem State.bufWrite_frameBuf (a : Nat) (v : Byte) :
    (s.bufWrite a v).frameBuf = Memory.write s.frameBuf a v := rfl
@[simp] theorem State.bufWrite_dsUnit (a : Nat) (v : Byte) :
    (s.bufWrite a v).dsUnit = s.dsUnit := rfl
@[simp] theorem State.bufWrite_bufEpoch (a : Nat) (v : Byte) :
    (s.bufWrite a v).bufEpoch = s.bufEpoch := rfl
@[simp] theorem State.bufWrite_units (a : Nat) (v : Byte) : (s.bufWrite a v).units = s.units := rfl
@[simp] theorem State.bufWrite_reply (a : Nat) (v : Byte) : (s.bufWrite a v).reply = s.reply := rfl
@[simp] theorem State.bufWrite_moves (a : Nat) (v : Byte) : (s.bufWrite a v).moves = s.moves := rfl

/-! ### takeReset -/

@[simp] theorem State.takeReset_state : s.takeReset.state = StateCode.idle := rfl
@[simp] theorem State.takeReset_off : s.takeReset.off = 0#16 := rfl
@[simp] theorem State.takeReset_lenL : s.takeReset.lenL = 0#16 := rfl
@[simp] theorem State.takeReset_modeL : s.takeReset.modeL = .auto := rfl
@[simp] theorem State.takeReset_code : s.takeReset.code = 0#16 := rfl
@[simp] theorem State.takeReset_ds : s.takeReset.ds = ⟨false, .arp, 0#16, 0#16, false, 0#4⟩ := rfl
@[simp] theorem State.takeReset_ctrlMode : s.takeReset.ctrlMode = .auto := rfl
@[simp] theorem State.takeReset_status : s.takeReset.status = ⟨false, false, .unclassified, 0#4, false⟩ := rfl
@[simp] theorem State.takeReset_frameLen : s.takeReset.frameLen = 0#16 := rfl
@[simp] theorem State.takeReset_etherType : s.takeReset.etherType = ⟨0#16, 0#16⟩ := rfl
@[simp] theorem State.takeReset_payload : s.takeReset.payload = ⟨0#16, 0#16⟩ := rfl
@[simp] theorem State.takeReset_vlanInfo : s.takeReset.vlanInfo = ⟨0#16, 0#16⟩ := rfl
@[simp] theorem State.takeReset_addrViews : s.takeReset.addrViews = ⟨0#8, 0#8, 0#8, 0#8⟩ := rfl
@[simp] theorem State.takeReset_config : s.takeReset.config = s.config := rfl
@[simp] theorem State.takeReset_vlanTag : s.takeReset.vlanTag = [] := rfl
@[simp] theorem State.takeReset_arp : s.takeReset.arp = ArpWindow.zero := rfl
@[simp] theorem State.takeReset_ip : s.takeReset.ip = IpWindow.zero := rfl
@[simp] theorem State.takeReset_ipOpt : s.takeReset.ipOpt = [] := rfl
@[simp] theorem State.takeReset_frameBuf : s.takeReset.frameBuf = [] := rfl
@[simp] theorem State.takeReset_dsUnit : s.takeReset.dsUnit = s.dsUnit := rfl
@[simp] theorem State.takeReset_bufEpoch : s.takeReset.bufEpoch = s.bufEpoch + 1 := rfl
@[simp] theorem State.takeReset_units : s.takeReset.units = Units.zero := rfl
@[simp] theorem State.takeReset_reply : s.takeReset.reply = s.reply := rfl
@[simp] theorem State.takeReset_moves : s.takeReset.moves = s.moves := rfl

/-! ### The fields of the status and of the model's variables -/

@[simp] theorem Status.finished_busy (t : Status) (c : BitVec 4) : (t.finished c).busy = false := rfl
@[simp] theorem Status.finished_done (t : Status) (c : BitVec 4) : (t.finished c).done = true := rfl
@[simp] theorem Status.finished_cls (t : Status) (c : BitVec 4) : (t.finished c).cls = t.cls := rfl
@[simp] theorem Status.finished_errCode (t : Status) (c : BitVec 4) :
    (t.finished c).errCode = c := rfl
@[simp] theorem Status.finished_errDs (t : Status) (c : BitVec 4) :
    (t.finished c).errDs = t.errDs := rfl
@[simp] theorem Status.withClass_busy (t : Status) (c : FrameClass) :
    (t.withClass c).busy = t.busy := rfl
@[simp] theorem Status.withClass_done (t : Status) (c : FrameClass) :
    (t.withClass c).done = t.done := rfl
@[simp] theorem Status.withClass_cls (t : Status) (c : FrameClass) : (t.withClass c).cls = c := rfl
@[simp] theorem Status.withClass_errCode (t : Status) (c : FrameClass) :
    (t.withClass c).errCode = t.errCode := rfl
@[simp] theorem Status.withClass_errDs (t : Status) (c : FrameClass) :
    (t.withClass c).errDs = t.errDs := rfl
@[simp] theorem Status.withErrDs_busy (t : Status) : t.withErrDs.busy = t.busy := rfl
@[simp] theorem Status.withErrDs_done (t : Status) : t.withErrDs.done = t.done := rfl
@[simp] theorem Status.withErrDs_cls (t : Status) : t.withErrDs.cls = t.cls := rfl
@[simp] theorem Status.withErrDs_errCode (t : Status) : t.withErrDs.errCode = t.errCode := rfl
@[simp] theorem Status.withErrDs_errDs (t : Status) : t.withErrDs.errDs = true := rfl
@[simp] theorem Status.started_busy : Status.started.busy = true := rfl
@[simp] theorem Status.started_done : Status.started.done = false := rfl
@[simp] theorem Status.started_cls : Status.started.cls = .unclassified := rfl
@[simp] theorem Status.started_errCode : Status.started.errCode = 0#4 := rfl
@[simp] theorem Status.started_errDs : Status.started.errDs = false := rfl

/-! ### What the frame-buffer primitives depend on -/

/-- A byte read depends on the buffer and the epoch only. -/
theorem State.bufByte_congr {s t : State} (hb : t.frameBuf = s.frameBuf)
    (he : t.bufEpoch = s.bufEpoch) (a : Nat) : t.bufByte a = s.bufByte a := by
  simp only [State.bufByte, hb, he]

/-- So does a 16-bit read. -/
theorem State.be16_congr {s t : State} (hb : t.frameBuf = s.frameBuf)
    (he : t.bufEpoch = s.bufEpoch) (a : Nat) : t.be16 a = s.be16 a := by
  simp only [State.be16, State.bufByte_congr hb he]

end Sys2Proof.Machine
end

