-- ==== Sys2Proof/Laws/Ops.lean ====
section
/-! SUPPORT. The shared operations: one lemma for each that says what it can do. -/

namespace Sys2Proof.Machine

/-! ### Widths -/

/-- A natural number that fits is stored as it stands (00_scope.md R15). -/
theorem toNat_half {n : Nat} (h : n < 65536) : (half n).toNat = n := by
  simp [half, Nat.mod_eq_of_lt h]

/-- A 16-bit value is below 65536. -/
theorem half_lt (v : Half) : v.toNat < 65536 := v.isLt

/-! ### The classifier -/

/-- The answer VLAN is the code 0x8100 and no other (30_encoding.md R103). -/
theorem classify_eq_vlan {c : Half} : classify c = .vlan ↔ c = 0x8100#16 := by
  unfold classify
  split <;> [skip; split <;> [skip; split]] <;> simp_all

/-- The answer ARP is the code 0x0806. -/
theorem classify_eq_arp {c : Half} : classify c = .arp ↔ c = 0x0806#16 := by
  unfold classify
  split <;> [skip; split <;> [skip; split]] <;> simp_all

/-- The answer IPV4 is the code 0x0800. -/
theorem classify_eq_ipv4 {c : Half} : classify c = .ipv4 ↔ c = 0x0800#16 := by
  unfold classify
  split <;> [skip; split <;> [skip; split]] <;> simp_all

/-- The answer OTHER is every other code (30_encoding.md R108). -/
theorem classify_eq_other {c : Half} :
    classify c = .other ↔ c ≠ 0x8100#16 ∧ c ≠ 0x0806#16 ∧ c ≠ 0x0800#16 := by
  unfold classify
  split <;> [skip; split <;> [skip; split]] <;> simp_all

/-- The class table and the decode table agree row by row. -/
theorem decodeEtherType_cases (c : Half) :
    decodeEtherType c = .vlanTpid ∧ c = 0x8100#16 ∧ classify c = .vlan ∨
    decodeEtherType c = .etypeArp ∧ c = 0x0806#16 ∧ classify c = .arp ∨
    decodeEtherType c = .etypeIpv4 ∧ c = 0x0800#16 ∧ classify c = .ipv4 ∨
    decodeEtherType c = .etypeOther c ∧ classify c = .other := by
  unfold decodeEtherType classify
  split <;> [skip; split <;> [skip; split]] <;> simp_all

/-! ### ARP widths -/

/-- The two width selections (43_arp_reference.md R182), with the packet lengths they need (R184). -/
theorem arpWidths_cases (f : Half) :
    f = 0x0800#16 ∧ arpWidths f = ⟨6, 4⟩ ∧ arpLength (arpWidths f) = 28 ∨
    f ≠ 0x0800#16 ∧ arpWidths f = ⟨6, 6⟩ ∧ arpLength (arpWidths f) = 32 := by
  unfold arpWidths
  split
  · exact .inl ⟨‹_›, rfl, rfl⟩
  · exact .inr ⟨‹_›, rfl, rfl⟩

/-! ### START -/

/-- Everything the START command can do (45_frame_fsm.md R230, R231, 20_memory.md R87). -/
theorem startCommand_cases (m : ParseMode) (s : State) :
    (s.state ≠ StateCode.idle ∨ m = .reserved) ∧ startCommand m s = .next (s.setCtrlMode m) ∨
    s.state = StateCode.idle ∧ m ≠ .reserved ∧ s.config.maxFrameLen.toNat < s.frameLen.toNat ∧
      startCommand m s = .refused .startTooLong ∨
    s.state = StateCode.idle ∧ m ≠ .reserved ∧ s.frameLen.toNat ≤ s.config.maxFrameLen.toNat ∧
      startCommand m s = .next ((s.setCtrlMode m).beginParse m) := by
  unfold startCommand
  by_cases h : s.state ≠ StateCode.idle ∨ m = .reserved
  · exact .inl ⟨h, if_pos h⟩
  · obtain ⟨h1, h2⟩ := not_or.1 h
    rw [if_neg h]
    by_cases hl : s.config.maxFrameLen.toNat < s.frameLen.toNat
    · exact .inr (.inl ⟨Decidable.not_not.1 h1, h2, hl, if_pos hl⟩)
    · exact .inr (.inr ⟨Decidable.not_not.1 h1, h2, Nat.le_of_not_lt hl, if_neg hl⟩)

/-! ### The option walk -/

/-- A walk is live exactly when it goes on and `q < e`. -/
theorem OptWalk.live_iff {w : OptWalk} : w.live = true ↔ w.status = .walking ∧ w.q < w.e := by
  simp [OptWalk.live]

/-- Everything one turn of a live walk can do (44_ipv4_reference.md R208 to R210). -/
theorem walkTurn_cases {rd : Nat → Byte} {t : Byte} {w : OptWalk} (h : w.live = true) :
    (t.extractLsb' 0 5 = 0#5 ∧ walkTurn rd t w = { w with status := .ended }) ∨
    (t.extractLsb' 0 5 ≠ 0#5 ∧ (w.e < w.q + 2 ∨ (rd (w.q + 1)).toNat < 2 ∨
      w.e < w.q + (rd (w.q + 1)).toNat) ∧ walkTurn rd t w = { w with status := .invalid }) ∨
    (t.extractLsb' 0 5 ≠ 0#5 ∧ w.q + 2 ≤ w.e ∧ 2 ≤ (rd (w.q + 1)).toNat ∧
      w.q + (rd (w.q + 1)).toNat ≤ w.e ∧
      walkTurn rd t w = { w with
        q := w.q + (rd (w.q + 1)).toNat
        opts := w.opts ++ [⟨t.extractLsb' 7 1, t.extractLsb' 5 2, t.extractLsb' 0 5,
          rd (w.q + 1), half (w.q + 2)⟩] }) := by
  unfold walkTurn
  split
  · exact .inl ⟨‹_›, by simp [walkEol, h]⟩
  · rename_i hn
    unfold walkEntry
    rw [if_pos h]
    dsimp only
    split
    · exact .inr (.inl ⟨hn, .inl ‹_›, rfl⟩)
    · split
      · exact .inr (.inl ⟨hn, .inr (.inl ‹_›), rfl⟩)
      · split
        · exact .inr (.inl ⟨hn, .inr (.inr ‹_›), rfl⟩)
        · exact .inr (.inr ⟨hn, by omega, by omega, by omega, rfl⟩)

/-- A walk that is not live only closes. -/
theorem walkTurn_not_live {rd : Nat → Byte} {t : Byte} {w : OptWalk} (h : w.live = false) :
    walkTurn rd t w = w.close := by
  unfold walkTurn walkEol walkEntry
  simp [h]

/-- A turn leaves the region's end. -/
@[simp] theorem walkTurn_e (rd : Nat → Byte) (t : Byte) (w : OptWalk) :
    (walkTurn rd t w).e = w.e := by
  cases h : w.live
  · rw [walkTurn_not_live h]
    unfold OptWalk.close
    split <;> rfl
  · rcases walkTurn_cases (rd := rd) (t := t) h with ⟨_, h⟩ | ⟨_, _, h⟩ | ⟨_, _, _, _, h⟩ <;> rw [h]

/-- One turn of the whole walk, unfolded. -/
theorem walkOptions_succ (rd : Nat → Byte) (n : Nat) (w : OptWalk) :
    walkOptions rd (n + 1) w =
      if w.live then walkOptions rd n (walkTurn rd (rd w.q) w) else w.close := rfl

/-- The whole walk leaves the region's end. -/
@[simp] theorem walkOptions_e (rd : Nat → Byte) : ∀ (n : Nat) (w : OptWalk),
    (walkOptions rd n w).e = w.e
  | 0, _ => rfl
  | n + 1, w => by
    rw [walkOptions_succ]
    split
    · rw [walkOptions_e rd n, walkTurn_e]
    · unfold OptWalk.close
      split <;> rfl

/-! ### The option slots -/

/-- Writing entries keeps the canonical form. -/
theorem writeSlots_wf : ∀ (os : List OptEntry) (j : Nat) {f : List (Nat × Word)},
    ArrayWf f → ArrayWf (writeSlots os j f)
  | [], _, _, h => h
  | o :: os, j, _, h => writeSlots_wf os (j + 1) (arrayWrite_wf h j o.word)

/-- Writing entries from slot j lists no slot beyond the last of them. -/
theorem writeSlots_bound : ∀ (os : List OptEntry) (j : Nat) {f : List (Nat × Word)} {b : Nat},
    (∀ c ∈ f, c.1 < b) → j + os.length ≤ b → ∀ c ∈ writeSlots os j f, c.1 < b
  | [], _, _, _, h, _ => h
  | o :: os, j, f, b, h, hb => by
    have hb : j + (os.length + 1) ≤ b := by simpa using hb
    exact writeSlots_bound os (j + 1) (arrayWrite_bound h (by omega) o.word) (by omega)

/-- A slot below the first written one keeps its value. -/
theorem arrayRead_writeSlots_below : ∀ (os : List OptEntry) (j i : Nat) (f : List (Nat × Word)),
    i < j → arrayRead (writeSlots os j f) i = arrayRead f i
  | [], _, _, _, _ => rfl
  | o :: os, j, i, f, h => by
    rw [writeSlots, arrayRead_writeSlots_below os (j + 1) i _ (by omega),
      arrayRead_write_other f o.word (by omega)]

end Sys2Proof.Machine
end

