-- ==== Sys2Proof/Laws/PerInstr.lean ====
section
/-! SUPPORT. What is said of every instruction as syntax, one lemma per constructor: the words the
encoder writes fit the instruction's code space (spec/opcode_table.json, column "format"), and they
set no bit that the space ignores (30_encoding.md R115). -/

namespace Sys2Proof.Laws.EncodeFits

/-- The word of `i` fits its space's width and uses its live bits only. -/
def Statement (i : Instr) : Prop :=
  (encode i).toNat < 2 ^ i.space.width ∧ encode i &&& i.space.liveBits = encode i

theorem vlanTpid : Statement .vlanTpid := by unfold Statement; decide
theorem etypeArp : Statement .etypeArp := by unfold Statement; decide
theorem etypeIpv4 : Statement .etypeIpv4 := by unfold Statement; decide
theorem idle : Statement .idle := by unfold Statement; decide
theorem ethAddr : Statement .ethAddr := by unfold Statement; decide
theorem tagPeek : Statement .tagPeek := by unfold Statement; decide
theorem tagRead : Statement .tagRead := by unfold Statement; decide
theorem etypeLatch : Statement .etypeLatch := by unfold Statement; decide
theorem dispatch : Statement .dispatch := by unfold Statement; decide
theorem dsWait : Statement .dsWait := by unfold Statement; decide
theorem startAuto : Statement .startAuto := by unfold Statement; decide
theorem startExpectArp : Statement .startExpectArp := by unfold Statement; decide
theorem startExpectIpv4 : Statement .startExpectIpv4 := by unfold Statement; decide
theorem startReserved : Statement .startReserved := by unfold Statement; decide
theorem arpDecode : Statement .arpDecode := by unfold Statement; decide
theorem ipv4Decode : Statement .ipv4Decode := by unfold Statement; decide
theorem arpBodyIpv4 : Statement .arpBodyIpv4 := by unfold Statement; decide

theorem setMode : ∀ mode : BitVec 2, Statement (.setMode mode) := by unfold Statement; decide

/-- A 16-bit code in a word leaves bits 31:16 clear. -/
theorem code_masked (c : Half) : c.setWidth 32 &&& 0xFFFF#32 = c.setWidth 32 := by
  apply BitVec.eq_of_toNat_eq
  have := c.isLt
  rw [BitVec.toNat_and, BitVec.toNat_setWidth, Nat.mod_eq_of_lt (by omega),
    show (0xFFFF#32).toNat = 2 ^ 16 - 1 from rfl, Nat.and_two_pow_sub_one_eq_mod,
    Nat.mod_eq_of_lt this]

/-- A byte in a word leaves bits 31:8 clear. -/
theorem byte_masked (b : Byte) : b.setWidth 32 &&& 0xFF#32 = b.setWidth 32 := by
  apply BitVec.eq_of_toNat_eq
  have := b.isLt
  rw [BitVec.toNat_and, BitVec.toNat_setWidth, Nat.mod_eq_of_lt (by omega),
    show (0xFF#32).toNat = 2 ^ 8 - 1 from rfl, Nat.and_two_pow_sub_one_eq_mod,
    Nat.mod_eq_of_lt this]

/-- A narrow field in a word is below its own bound. -/
theorem field_lt {n : Nat} (c : BitVec n) : (c.setWidth 32).toNat < 2 ^ n := by
  rw [BitVec.toNat_setWidth]
  exact Nat.lt_of_le_of_lt (Nat.mod_le _ _) c.isLt

theorem etypeOther (code : Half) : Statement (.etypeOther code) :=
  ⟨field_lt code, code_masked code⟩

theorem arpBodyOther (protoFmt : Half) : Statement (.arpBodyOther protoFmt) :=
  ⟨field_lt protoFmt, code_masked protoFmt⟩

theorem optEol (copy : BitVec 1) (cls : BitVec 2) : Statement (.optEol copy cls) :=
  ⟨field_lt (copy ++ cls ++ 0#5), byte_masked (copy ++ cls ++ 0#5)⟩

theorem optTlv (copy : BitVec 1) (cls : BitVec 2) (number : BitVec 5) :
    Statement (.optTlv copy cls number) :=
  ⟨field_lt (copy ++ cls ++ number), byte_masked (copy ++ cls ++ number)⟩

end Sys2Proof.Laws.EncodeFits
end

