-- ==== Sys2Proof/Laws/Step.lean ====
section
/-! SUPPORT. What each operation and each agent's step can do, said once: if it answers a next state,
then one of these cases holds. -/

namespace Sys2Proof.Machine

/-! ### exec, arm by arm -/

theorem exec_vlanTpid (s : State) : exec .vlanTpid s = .next (s.answerClass .vlan) := rfl
theorem exec_etypeArp (s : State) : exec .etypeArp s = .next (s.answerClass .arp) := rfl
theorem exec_etypeIpv4 (s : State) : exec .etypeIpv4 s = .next (s.answerClass .ipv4) := rfl
theorem exec_etypeOther (c : Half) (s : State) :
    exec (.etypeOther c) s = .next (s.answerClass (classify c)) := rfl
theorem exec_idle (s : State) : exec .idle s = .next s := rfl
theorem exec_ethAddr (s : State) : exec .ethAddr s = execEthAddr s := rfl
theorem exec_tagPeek (s : State) : exec .tagPeek s = execTagPeek s := rfl
theorem exec_tagRead (s : State) : exec .tagRead s = execTagRead s := rfl
theorem exec_etypeLatch (s : State) : exec .etypeLatch s = .next s.latchEtherType := rfl
theorem exec_dispatch (s : State) : exec .dispatch s = execDispatch s := rfl
theorem exec_dsWait (s : State) : exec .dsWait s = execDsWait s := rfl
theorem exec_setMode (b : BitVec 2) (s : State) :
    exec (.setMode b) s = .next (s.setCtrlMode (ParseMode.ofBits b)) := rfl
theorem exec_startAuto (s : State) : exec .startAuto s = startCommand .auto s := rfl
theorem exec_startExpectArp (s : State) :
    exec .startExpectArp s = startCommand .expectArp s := rfl
theorem exec_startExpectIpv4 (s : State) :
    exec .startExpectIpv4 s = startCommand .expectIpv4 s := rfl
theorem exec_startReserved (s : State) :
    exec .startReserved s = startCommand .reserved s := rfl
theorem exec_arpDecode (s : State) : exec .arpDecode s = execArpDecode s := rfl
theorem exec_ipv4Decode (s : State) : exec .ipv4Decode s = execIpv4Decode s := rfl
theorem exec_arpBodyIpv4 (s : State) : exec .arpBodyIpv4 s = .next (s.answerWidths ⟨6, 4⟩) := rfl
theorem exec_arpBodyOther (f : Half) (s : State) :
    exec (.arpBodyOther f) s = .next (s.answerWidths (arpWidths f)) := rfl
theorem exec_optEol (copy : BitVec 1) (cls : BitVec 2) (s : State) :
    exec (.optEol copy cls) s = execOptEol copy cls s := rfl
theorem exec_optTlv (copy : BitVec 1) (cls : BitVec 2) (number : BitVec 5) (s : State) :
    exec (.optTlv copy cls number) s = execOptTlv copy cls number s := rfl

/-! ### The engine's operations -/

/-- ETH_ADDR (41_ethernet_reader.md R151). -/
theorem execEthAddr_cases (s : State) :
    s.lenL.toNat < 12 ∧ execEthAddr s = .next (s.raise .tooShort) ∨
    12 ≤ s.lenL.toNat ∧ execEthAddr s = .next s.latchAddrViews := by
  unfold execEthAddr
  split
  · exact .inl ⟨‹_›, rfl⟩
  · exact .inr ⟨by omega, rfl⟩

/-- TAG_PEEK (42_vlan_stack.md R162). -/
theorem execTagPeek_cases (s : State) :
    s.lenL.toNat < s.off.toNat + 2 ∧ execTagPeek s = .next (s.raise .tooShort) ∨
    s.off.toNat + 2 ≤ s.lenL.toNat ∧ s.config.maxFrameLen.toNat < s.off.toNat + 2 ∧
      execTagPeek s = .fault .bufferAddress ∨
    s.off.toNat + 2 ≤ s.lenL.toNat ∧ s.off.toNat + 2 ≤ s.config.maxFrameLen.toNat ∧
      s.be16 s.off.toNat = 0x8100#16 ∧
      execTagPeek s = .next (((s.setCode 0x8100#16).answerClass .vlan).goto StateCode.tagRead) ∨
    s.off.toNat + 2 ≤ s.lenL.toNat ∧ s.off.toNat + 2 ≤ s.config.maxFrameLen.toNat ∧
      s.be16 s.off.toNat ≠ 0x8100#16 ∧
      execTagPeek s = .next (((s.setCode (s.be16 s.off.toNat)).answerClass
        (classify (s.be16 s.off.toNat))).goto StateCode.etypeLatch) := by
  unfold execTagPeek
  split
  · exact .inl ⟨‹_›, rfl⟩
  · split
    · exact .inr (.inl ⟨by omega, ‹_›, rfl⟩)
    · dsimp only
      split
      · rename_i hc
        have hv := classify_eq_vlan.1 hc
        exact .inr (.inr (.inl ⟨by omega, by omega, hv, by rw [hc, hv]⟩))
      · rename_i hc
        exact .inr (.inr (.inr ⟨by omega, by omega, mt classify_eq_vlan.2 hc, rfl⟩))

/-- TAG_READ (42_vlan_stack.md R164). -/
theorem execTagRead_cases (s : State) :
    s.lenL.toNat < s.off.toNat + 4 ∧ execTagRead s = .next (s.raise .tooShort) ∨
    s.off.toNat + 4 ≤ s.lenL.toNat ∧ s.vlanInfo.count = s.config.vlanMaxDepth ∧
      execTagRead s = .next (s.raise .tagOverflow) ∨
    s.off.toNat + 4 ≤ s.lenL.toNat ∧ s.vlanInfo.count ≠ s.config.vlanMaxDepth ∧
      s.config.maxFrameLen.toNat < s.off.toNat + 4 ∧ execTagRead s = .fault .bufferAddress ∨
    s.off.toNat + 4 ≤ s.lenL.toNat ∧ s.vlanInfo.count ≠ s.config.vlanMaxDepth ∧
      s.off.toNat + 4 ≤ s.config.maxFrameLen.toNat ∧
      execTagRead s = .next (s.pushTag (s.be16 (s.off.toNat + 2))) := by
  unfold execTagRead
  split
  · exact .inl ⟨‹_›, rfl⟩
  · split
    · exact .inr (.inl ⟨by omega, ‹_›, rfl⟩)
    · split
      · exact .inr (.inr (.inl ⟨by omega, ‹_›, ‹_›, rfl⟩))
      · exact .inr (.inr (.inr ⟨by omega, ‹_›, by omega, rfl⟩))

/-- The state DISPATCH branches from: the class answered and reported (45_frame_fsm.md R240). -/
def State.classified (s : State) : State :=
  (s.answerClass (classify s.code)).setClass (classify s.code).frameClass

/-- DISPATCH (45_frame_fsm.md R240), for a code that is no tag code. -/
theorem execDispatch_cases (s : State) (hv : classify s.code ≠ .vlan) :
    classify s.code = .arp ∧ s.modeL ≠ .expectIpv4 ∧ s.modeL ≠ .reserved ∧
      execDispatch s = .next (s.classified.issue .arp) ∨
    classify s.code = .ipv4 ∧ s.modeL ≠ .expectArp ∧ s.modeL ≠ .reserved ∧
      execDispatch s = .next (s.classified.issue .ipv4) ∨
    classify s.code = .other ∧ s.modeL = .auto ∧
      execDispatch s = .next (s.classified.finish okCode) ∨
    classify s.code ≠ .arp ∧ s.modeL = .expectArp ∧
      execDispatch s = .next (s.classified.raise .notArp) ∨
    classify s.code ≠ .ipv4 ∧ s.modeL = .expectIpv4 ∧
      execDispatch s = .next (s.classified.raise .notIpv4) ∨
    s.modeL = .reserved ∧ execDispatch s = .fault .reservedMode := by
  unfold execDispatch State.classified
  cases hm : s.modeL <;> cases hc : classify s.code <;> simp_all [EtherClass.dsClass]

/-- DS_WAIT (45_frame_fsm.md R243). -/
theorem execDsWait_cases (s : State) :
    s.ds.ack = false ∧ execDsWait s = .next s ∨
    s.ds.ack = true ∧ s.ds.resp = okCode ∧ execDsWait s = .next (s.clearRequest.finish okCode) ∨
    s.ds.ack = true ∧ s.ds.resp ≠ okCode ∧
      execDsWait s = .next (s.clearRequest.setErrDs.finish s.ds.resp) := by
  unfold execDsWait
  cases ha : s.ds.ack
  · exact .inl ⟨rfl, rfl⟩
  · by_cases hr : s.ds.resp = okCode
    · exact .inr (.inl ⟨rfl, hr, by simp [hr]⟩)
    · exact .inr (.inr ⟨rfl, hr, by simp [hr]⟩)

/-! ### The reference units -/

/-- ARP_DECODE (43_arp_reference.md R180). -/
theorem execArpDecode_cases (s : State) :
    s.ds.len.toNat < 8 ∧ execArpDecode s = .next (s.answer ErrorKind.tooShort.code) ∨
    8 ≤ s.ds.len.toNat ∧ s.config.maxFrameLen.toNat < s.ds.base.toNat + s.ds.len.toNat ∧
      execArpDecode s = .fault .bufferAddress ∨
    8 ≤ s.ds.len.toNat ∧ s.ds.base.toNat + s.ds.len.toNat ≤ s.config.maxFrameLen.toNat ∧
      s.ds.len.toNat < arpLength (arpWidths (s.be16 (s.ds.base.toNat + 2))) ∧
      execArpDecode s = .next ((s.answerWidths (arpWidths (s.be16 (s.ds.base.toNat + 2)))).answer
        ErrorKind.tooShort.code) ∨
    8 ≤ s.ds.len.toNat ∧ s.ds.base.toNat + s.ds.len.toNat ≤ s.config.maxFrameLen.toNat ∧
      arpLength (arpWidths (s.be16 (s.ds.base.toNat + 2))) ≤ s.ds.len.toNat ∧
      execArpDecode s = .next (((s.answerWidths (arpWidths (s.be16 (s.ds.base.toNat + 2)))).setArp
        (arpWindowOf s s.ds.base.toNat (arpWidths (s.be16 (s.ds.base.toNat + 2))))).answer
        okCode) := by
  unfold execArpDecode
  dsimp only
  split
  · exact .inl ⟨‹_›, rfl⟩
  · split
    · exact .inr (.inl ⟨by omega, ‹_›, rfl⟩)
    · split
      · exact .inr (.inr (.inl ⟨by omega, by omega, ‹_›, rfl⟩))
      · exact .inr (.inr (.inr ⟨by omega, by omega, by omega, rfl⟩))

/-- The option walk of IPV4_DECODE at the handed-off payload. -/
def State.ipWalk (s : State) : OptWalk :=
  walkRegion s.bufByte s.ds.base.toNat (ipIhl s s.ds.base.toNat).toNat

/-- IPV4_DECODE (44_ipv4_reference.md R200); the multiple-of-4 check of R207 never fails. -/
theorem execIpv4Decode_cases (s : State) :
    s.ds.len.toNat < 20 ∧ execIpv4Decode s = .next (s.answer ErrorKind.tooShort.code) ∨
    20 ≤ s.ds.len.toNat ∧ s.config.maxFrameLen.toNat < s.ds.base.toNat + s.ds.len.toNat ∧
      execIpv4Decode s = .fault .bufferAddress ∨
    20 ≤ s.ds.len.toNat ∧ s.ds.base.toNat + s.ds.len.toNat ≤ s.config.maxFrameLen.toNat ∧
      ((ipIhl s s.ds.base.toNat).toNat < 5 ∨
        s.ds.len.toNat < 4 * (ipIhl s s.ds.base.toNat).toNat) ∧
      execIpv4Decode s = .next (s.answer ErrorKind.invalidHeaderLength.code) ∨
    20 ≤ s.ds.len.toNat ∧ s.ds.base.toNat + s.ds.len.toNat ≤ s.config.maxFrameLen.toNat ∧
      5 ≤ (ipIhl s s.ds.base.toNat).toNat ∧
      4 * (ipIhl s s.ds.base.toNat).toNat ≤ s.ds.len.toNat ∧ s.ipWalk.status = .invalid ∧
      execIpv4Decode s = .next ((s.setWalk s.ipWalk).answer ErrorKind.invalidOptions.code) ∨
    20 ≤ s.ds.len.toNat ∧ s.ds.base.toNat + s.ds.len.toNat ≤ s.config.maxFrameLen.toNat ∧
      5 ≤ (ipIhl s s.ds.base.toNat).toNat ∧
      4 * (ipIhl s s.ds.base.toNat).toNat ≤ s.ds.len.toNat ∧ s.ipWalk.status ≠ .invalid ∧
      execIpv4Decode s = .next (((s.setWalk s.ipWalk).setIp
        (ipWindowOf s s.ds.base.toNat s.ipWalk.opts)
        (writeSlots s.ipWalk.opts 0 s.ipOpt)).answer okCode) := by
  have h15 := (ipIhl s s.ds.base.toNat).isLt
  unfold execIpv4Decode ipv4Body State.ipWalk
  dsimp only
  split
  · exact .inl ⟨‹_›, rfl⟩
  · split
    · exact .inr (.inl ⟨by omega, ‹_›, rfl⟩)
    · split
      · exact .inr (.inr (.inl ⟨by omega, by omega, by omega, rfl⟩))
      · rw [if_neg (by omega)]
        split
        · exact .inr (.inr (.inr (.inl ⟨by omega, by omega, by omega, by omega, ‹_›, rfl⟩)))
        · exact .inr (.inr (.inr (.inr ⟨by omega, by omega, by omega, by omega, ‹_›, rfl⟩)))

/-! ### The agents -/

/-- The engine's step is the operation at STATE (30_encoding.md R112), or the fault of a reserved
code. -/
theorem engineStep_cases (s : State) :
    s.state = StateCode.idle ∧ engineStep s = .next s ∨
    s.state = StateCode.ethAddr ∧ engineStep s = execEthAddr s ∨
    s.state = StateCode.tagPeek ∧ engineStep s = execTagPeek s ∨
    s.state = StateCode.tagRead ∧ engineStep s = execTagRead s ∨
    s.state = StateCode.etypeLatch ∧ engineStep s = .next s.latchEtherType ∨
    s.state = StateCode.dispatch ∧ engineStep s = execDispatch s ∨
    s.state = StateCode.dsWait ∧ engineStep s = execDsWait s ∨
    6 < s.state.toNat ∧ engineStep s = .fault .reservedState := by
  unfold engineStep decodeState
  by_cases h0 : s.state = 0x0#4
  · rw [if_pos h0]; exact .inl ⟨h0, rfl⟩
  rw [if_neg h0]
  by_cases h1 : s.state = 0x1#4
  · rw [if_pos h1]; exact .inr (.inl ⟨h1, rfl⟩)
  rw [if_neg h1]
  by_cases h2 : s.state = 0x2#4
  · rw [if_pos h2]; exact .inr (.inr (.inl ⟨h2, rfl⟩))
  rw [if_neg h2]
  by_cases h3 : s.state = 0x3#4
  · rw [if_pos h3]; exact .inr (.inr (.inr (.inl ⟨h3, rfl⟩)))
  rw [if_neg h3]
  by_cases h4 : s.state = 0x4#4
  · rw [if_pos h4]; exact .inr (.inr (.inr (.inr (.inl ⟨h4, rfl⟩))))
  rw [if_neg h4]
  by_cases h5 : s.state = 0x5#4
  · rw [if_pos h5]; exact .inr (.inr (.inr (.inr (.inr (.inl ⟨h5, rfl⟩)))))
  rw [if_neg h5]
  by_cases h6 : s.state = 0x6#4
  · rw [if_pos h6]; exact .inr (.inr (.inr (.inr (.inr (.inr (.inl ⟨h6, rfl⟩))))))
  rw [if_neg h6]
  refine .inr (.inr (.inr (.inr (.inr (.inr (.inr ⟨?_, rfl⟩))))))
  simp only [← BitVec.toNat_inj, BitVec.toNat_ofNat] at h0 h1 h2 h3 h4 h5 h6
  omega

/-- The reference unit's step (45_frame_fsm.md R246). -/
theorem downstreamStep_cases (s : State) :
    s.referenceEnabled = false ∧ downstreamStep s = .next s ∨
    s.referenceEnabled = true ∧ s.ds.cls = .arp ∧ downstreamStep s = execArpDecode s ∨
    s.referenceEnabled = true ∧ s.ds.cls = .ipv4 ∧ downstreamStep s = execIpv4Decode s := by
  unfold downstreamStep
  cases hr : s.referenceEnabled
  · exact .inl ⟨rfl, rfl⟩
  · cases hc : s.ds.cls
    · exact .inr (.inl ⟨rfl, rfl, rfl⟩)
    · exact .inr (.inr ⟨rfl, rfl, rfl⟩)

/-- The reference unit is enabled on an open request of a REFERENCE block. -/
theorem State.referenceEnabled_iff {s : State} :
    s.referenceEnabled = true ↔ s.dsUnit = .reference ∧ s.ds.req = true ∧ s.ds.ack = false := by
  simp [State.referenceEnabled, State.requestOpen]

/-- The engine is enabled outside IDLE, and in DS_WAIT on an answer. -/
theorem State.engineEnabled_iff {s : State} :
    s.engineEnabled = true ↔
      s.state ≠ StateCode.idle ∧ (s.state = StateCode.dsWait → s.ds.ack = true) := by
  simp only [State.engineEnabled, Bool.and_eq_true, bne_iff_ne, Bool.or_eq_true]
  exact and_congr_right fun _ => ⟨fun h h' => h.resolve_left (fun hn => hn h'), fun h => by
    by_cases h' : s.state = StateCode.dsWait
    · exact .inr (h h')
    · exact .inl h'⟩

/-- What an EXTERNAL unit writes with OK, by the request's class. -/
theorem State.writeDrawn_cases (s : State) (x : ExternalAnswer) :
    s.ds.cls = .arp ∧ s.writeDrawn x = s.setArp (x.arp.getD s.arp) ∨
    s.ds.cls = .ipv4 ∧ s.writeDrawn x = s.setIp (x.ip.getD s.ip)
      (externalSlots (x.ip.getD s.ip).slotCount x.slots s.ipOpt) := by
  unfold State.writeDrawn
  cases hc : s.ds.cls
  · exact .inl ⟨rfl, rfl⟩
  · exact .inr ⟨rfl, rfl⟩

/-- It writes the result windows only. -/
theorem State.writeDrawn_frame (s : State) (x : ExternalAnswer) :
    s.writeDrawn x = { s with
      arp := (s.writeDrawn x).arp, ip := (s.writeDrawn x).ip, ipOpt := (s.writeDrawn x).ipOpt } := by
  rcases s.writeDrawn_cases x with ⟨_, h⟩ | ⟨_, h⟩ <;> rw [h] <;> rfl

/-- An EXTERNAL unit's step (45_frame_fsm.md R247, 60_exceptions.md R277): no such step, a refusal, an
error answer that leaves every window, or OK with the window of the request's class. -/
theorem externalStep_cases (x : ExternalAnswer) (s : State) :
    ¬(s.dsUnit = .external ∧ s.ds.req = true ∧ s.ds.ack = false) ∧ externalStep x s = .next s ∨
    (s.dsUnit = .external ∧ s.ds.req = true ∧ s.ds.ack = false) ∧
      (3 < x.resp.toNat ∧ externalStep x s = .refused .externalAnswer ∨
       x.resp.toNat ≤ 3 ∧ x.resp ≠ okCode ∧ externalStep x s = .next (s.answer x.resp) ∨
       x.resp = okCode ∧ externalStep x s = .next ((s.writeDrawn x).answer okCode)) := by
  unfold externalStep State.requestOpen
  split
  · rename_i h
    refine .inr ⟨by simpa using h, ?_⟩
    split
    · exact .inl ⟨‹_›, rfl⟩
    · split
      · exact .inr (.inr ⟨‹_›, rfl⟩)
      · exact .inr (.inl ⟨by omega, ‹_›, rfl⟩)
  · rename_i h
    exact .inl ⟨by simpa using h, rfl⟩

/-- With no move given, the engine runs if it is enabled, else the reference unit may. -/
theorem step_nil {s : State} (h : s.moves = []) :
    step s = if s.engineEnabled then engineStep s else downstreamStep s := by
  unfold step
  rw [h]
  rfl

/-- With a move given, it is taken off the list and run. -/
theorem step_cons {s : State} {m : Move} {rest : List Move} (h : s.moves = m :: rest) :
    step s = runMove m (s.setMoves rest) := by
  unfold step
  rw [h]

/-- Writing the option slots of an EXTERNAL unit keeps the canonical form. -/
theorem externalSlots_wf (n : Nat) : ∀ (xs : List (Nat × Word)) {f : List (Nat × Word)},
    ArrayWf f → ArrayWf (externalSlots n xs f)
  | [], _, h => h
  | (j, v) :: rest, _, h => by
    unfold externalSlots
    split
    · exact externalSlots_wf n rest (arrayWrite_wf h j v)
    · exact externalSlots_wf n rest h

/-- An EXTERNAL unit writes option slots below its limit only. -/
theorem externalSlots_bound {n b : Nat} (hn : n ≤ b) :
    ∀ (xs : List (Nat × Word)) {f : List (Nat × Word)},
      (∀ c ∈ f, c.1 < b) → ∀ c ∈ externalSlots n xs f, c.1 < b
  | [], _, h => h
  | (j, v) :: rest, _, h => by
    unfold externalSlots
    split
    · exact externalSlots_bound hn rest (arrayWrite_bound h (by omega) v)
    · exact externalSlots_bound hn rest h

/-- The slots a window counts exist. -/
theorem IpWindow.slotCount_le (w : IpWindow) : w.slotCount ≤ Config.optionSlots :=
  Nat.min_le_left _ _

/-- A slot below the limit takes the last value an EXTERNAL unit draws for it; any other takes none. -/
theorem arrayRead_externalSlots (n j : Nat) : ∀ (xs f : List (Nat × Word)),
    arrayRead (externalSlots n xs f) j =
      if j < n then (lookup xs.reverse j).getD (arrayRead f j) else arrayRead f j
  | [], f => by simp [externalSlots, lookup]
  | (i, v) :: rest, f => by
    unfold externalSlots
    rw [arrayRead_externalSlots n j rest, List.reverse_cons, lookup_append]
    by_cases hj : j < n
    · by_cases hi : i = j
      · subst hi
        cases lookup rest.reverse i <;> simp [lookup, hj]
      · have hf : arrayRead (if i < n then arrayWrite f i v else f) j = arrayRead f j := by
          split
          · exact arrayRead_write_other f v (Ne.symm hi)
          · rfl
        cases lookup rest.reverse j <;> simp [lookup, hj, hi, hf]
    · rw [if_neg hj, if_neg hj]
      split
      · exact arrayRead_write_other f v (by omega)
      · rfl

/-- What a CTRL word runs: MODE alone, or the START command with its mode (30_encoding.md R115). -/
theorem exec_decodeCtrl_cases (v : Word) (s : State) :
    v.extractLsb' 0 1 = 0#1 ∧
      exec (decodeCtrl v) s = .next (s.setCtrlMode (ParseMode.ofBits (v.extractLsb' 1 2))) ∨
    ∃ m : ParseMode, exec (decodeCtrl v) s = startCommand m s := by
  unfold decodeCtrl
  split
  · exact .inl ⟨‹_›, rfl⟩
  · split
    · exact .inr ⟨.auto, rfl⟩
    · split
      · exact .inr ⟨.expectArp, rfl⟩
      · split
        · exact .inr ⟨.expectIpv4, rfl⟩
        · exact .inr ⟨.reserved, rfl⟩

/-- One row of a table searched in order. -/
theorem row_or_rest {α : Type} {p : Prop} [Decidable p] {x r : α} {y : Option α}
    (h : (if p then some x else y) = some r) : p ∧ x = r ∨ ¬p ∧ y = some r := by
  by_cases hp : p
  · rw [if_pos hp] at h
    exact .inl ⟨hp, Option.some.inj h⟩
  · rw [if_neg hp] at h
    exact .inr ⟨hp, h⟩

/-- A mapped aligned offset is its register's offset (10_state.md R40), its index in range. -/
theorem regAt_offset {depth off : Nat} {r : Reg} (h : regAt depth off = some r)
    (h4 : off % 4 = 0) : r.offset = off ∧ (∀ j, r = .ipOpt j → j < Config.optionSlots) ∧
      (∀ i, r = .vlanTag i → i < depth) := by
  unfold regAt at h
  iterate 20
    obtain ⟨ho, hr⟩ | ⟨_, h⟩ := row_or_rest h
    · subst hr ho
      exact ⟨rfl, fun _ hj => Reg.noConfusion hj, fun _ hi => Reg.noConfusion hi⟩
  obtain ⟨ho, hr⟩ | ⟨_, h⟩ := row_or_rest h
  · subst hr
    refine ⟨?_, fun j hj => ?_, fun _ hi => Reg.noConfusion hi⟩
    · show 0x340 + 4 * ((off - 0x340) / 4) = off
      omega
    · have hj := Reg.ipOpt.inj hj
      show j < 20
      omega
  · obtain ⟨ho, hr⟩ | ⟨_, h⟩ := row_or_rest h
    · subst hr
      refine ⟨?_, fun _ hj => Reg.noConfusion hj, fun i hi => ?_⟩
      · show 0x1000 + 4 * ((off - 0x1000) / 4) = off
        omega
      · have hi := Reg.vlanTag.inj hi
        omega
    · cases h

/-- Everything a host access that answers a next state can do. -/
theorem hostAccess_cases {a : HostAccess} {s t : State} (h : hostAccess a s = .next t) :
    (∃ r : HostReply, t = s.setReply r) ∨ t = s ∨
    (∃ n : Half, t = s.setFrameLen n) ∨
    (∃ v : Word, a = .regWrite 0x000 .word v ∧ exec (decodeCtrl v) s = .next t) ∨
    (∃ (addr : Nat) (b : Byte), a = .bufWrite addr b ∧ addr < s.config.maxFrameLen.toNat ∧
      s.status.busy = false ∧ t = s.bufWrite addr b) := by
  cases a with
  | regRead off width =>
    simp only [hostAccess] at h
    split at h
    · exact .inl ⟨_, by cases h; rfl⟩
    · cases h
  | regWrite off width value =>
    simp only [hostAccess] at h
    split at h
    · rename_i hf
      obtain ⟨hw, h4⟩ : width = .word ∧ off % 4 = 0 := by simpa [accessFormOk] using hf
      unfold writeOffset at h
      split at h
      · rename_i hr
        have ho : 0x000 = off := (regAt_offset hr h4).1
        subst hw ho
        exact .inr (.inr (.inr (.inl ⟨value, rfl, h⟩)))
      · exact .inr (.inr (.inl ⟨_, by cases h; rfl⟩))
      · exact .inr (.inl (by cases h; rfl))
    · cases h
  | bufRead addr =>
    simp only [hostAccess] at h
    split at h
    · exact .inl ⟨_, by cases h; rfl⟩
    · cases h
  | bufWrite addr value =>
    simp only [hostAccess] at h
    split at h
    · rename_i ha
      split at h
      · cases h
      · rename_i hb
        exact .inr (.inr (.inr (.inr ⟨addr, value, rfl, ha, by simpa using hb,
          by cases h; rfl⟩)))
    · cases h

/-- A combinational row changes the model's own variables only. -/
theorem exec_decodeEtherType (c : Half) (s : State) :
    exec (decodeEtherType c) s = .next (s.answerClass (classify c)) := by
  rcases decodeEtherType_cases c with ⟨h, _, k⟩ | ⟨h, _, k⟩ | ⟨h, _, k⟩ | ⟨h, _⟩ <;> rw [h]
  · rw [k]; rfl
  · rw [k]; rfl
  · rw [k]; rfl
  · rfl

/-- A proto_fmt selects its widths. -/
theorem exec_decodeArpProto (f : Half) (s : State) :
    exec (decodeArpProto f) s = .next (s.answerWidths (arpWidths f)) := by
  unfold decodeArpProto
  split
  · rename_i h
    subst h
    rfl
  · rfl

end Sys2Proof.Machine
end

