-- ==== Sys2Proof/Tests/Slice0.lean ====
section
/-! SUPPORT. The model's own tests. Expected values are from the encoding tables of 30_encoding.md, the
worked vectors of 95_test_vectors.md, or computed by hand from the cited rule. The `witness_…` theorems
show, for each statement with hypotheses, concrete states and operands that meet them. -/

namespace Sys2Proof.Tests

open Sys2Proof Sys2Proof.Machine

/-! ### Helpers -/

/-- The cells of bytes at consecutive addresses. -/
def cells : Nat → List Byte → Memory
  | _, [] => []
  | a, b :: bs => (a, b) :: cells (a + 1) bs

/-- The twelve address bytes of a frame. -/
def addrs : List Byte := List.replicate 12 0x11#8

/-- An idle block with MAX_FRAME_LEN = 64, VLAN_MAX_DEPTH = 2 and a loaded frame. -/
def loaded (bs : List Byte) : State :=
  { State.resetWith ⟨2#16, 64#16⟩ .reference with
    frameBuf := cells 0 bs
    frameLen := half bs.length }

/-- A block in a parse of a frame, at a STATE code, a cursor and a tag count. -/
def parsing (code : BitVec 4) (off count : Nat) (bs : List Byte) : State :=
  { loaded bs with
    state := code
    lenL := half bs.length
    off := half off
    status := Status.started
    addrViews := ⟨0#8, 6#8, 6#8, 6#8⟩
    vlanInfo := ⟨half count, half (4 * count)⟩ }

/-- A block at DISPATCH with a code and a mode; the payload is at 14. -/
def dispatching (code : Half) (m : ParseMode) : State :=
  { parsing 0x5#4 14 0 (addrs ++ [0x08#8, 0x06#8, 0x00#8, 0x00#8]) with
    code := code
    modeL := m
    etherType := ⟨code, 12#16⟩
    payload := ⟨14#16, 2#16⟩ }

/-- A block in DS_WAIT whose whole buffer, from address 0, is handed off. -/
def waiting (c : DsClass) (bs : List Byte) : State :=
  { loaded bs with
    state := 0x6#4
    lenL := half bs.length
    status := ⟨true, false, .arp, 0#4, false⟩
    ds := ⟨true, c, 0#16, half bs.length, false, 0#4⟩ }

/-- The same with the answer delivered. -/
def answered (resp : BitVec 4) : State :=
  { waiting .arp [] with ds := ⟨true, .arp, 14#16, 2#16, true, resp⟩ }

/-- An outcome is a next state that satisfies `p`. -/
def goesTo (o : Result) (p : State → Bool) : Bool :=
  match o with
  | .next t => p t
  | .fault _ => false
  | .refused _ => false

/-- An outcome is a refusal for the reason `r`. -/
def refuses (o : Result) (r : Refusal) : Bool :=
  match o with
  | .next _ => false
  | .fault _ => false
  | .refused q => q = r

/-- An ARP body: hw_fmt 1, the given proto_fmt, lengths 6 and 4, op 1, and `n` zero body bytes. -/
def arpBytes (protoHi protoLo : Byte) (n : Nat) : List Byte :=
  [0x00#8, 0x01#8, protoHi, protoLo, 0x06#8, 0x04#8, 0x00#8, 0x01#8] ++ List.replicate n 0x00#8

/-- An IPv4 header: its first byte, 19 zero bytes, and the bytes behind them. -/
def ipBytes (first : Byte) (rest : List Byte) : List Byte :=
  first :: (List.replicate 19 0x00#8 ++ rest)

/-- One 802.1Q tag and an unknown EtherType. -/
def taggedFrame : List Byte :=
  addrs ++ [0x81#8, 0x00#8, 0xA0#8, 0x05#8, 0x12#8, 0x34#8]

/-! ### WellFormed: one ill-formed term for each check -/

/-- R108: the codes of the three exact rows are no ETYPE_OTHER. -/
theorem test_wf_refuses_etypeOther : (Instr.etypeOther 0x8100#16).wf = false ∧
    (Instr.etypeOther 0x0806#16).wf = false ∧ (Instr.etypeOther 0x0800#16).wf = false ∧
    (Instr.etypeOther 0x88A8#16).wf = true := by decide

/-- R111: 0x0800 is no ARP_BODY_OTHER. -/
theorem test_wf_refuses_arpBodyOther : (Instr.arpBodyOther 0x0800#16).wf = false ∧
    (Instr.arpBodyOther 0x0806#16).wf = true := by decide

/-- R114: option number 0 is no OPT_TLV. -/
theorem test_wf_refuses_optTlv : (Instr.optTlv 1#1 3#2 0#5).wf = false ∧
    (Instr.optTlv 0#1 0#2 1#5).wf = true := by decide

/-! ### Decode: every constructor, by words written out from 30_encoding.md -/

/-- R108. -/
theorem test_decode_etherType :
    decodeIn .etherType 0b1000000100000000#32 = .ok .vlanTpid ∧
    decodeIn .etherType 0b0000100000000110#32 = .ok .etypeArp ∧
    decodeIn .etherType 0b0000100000000000#32 = .ok .etypeIpv4 ∧
    decodeIn .etherType 0b1000011011011101#32 = .ok (.etypeOther 0x86DD#16) ∧
    decodeIn .etherType 0b0000000000000000#32 = .ok (.etypeOther 0#16) := by decide

/-- R112, R118. -/
theorem test_decode_stateCode :
    decodeIn .stateCode 0b0000#32 = .ok .idle ∧
    decodeIn .stateCode 0b0001#32 = .ok .ethAddr ∧
    decodeIn .stateCode 0b0010#32 = .ok .tagPeek ∧
    decodeIn .stateCode 0b0011#32 = .ok .tagRead ∧
    decodeIn .stateCode 0b0100#32 = .ok .etypeLatch ∧
    decodeIn .stateCode 0b0101#32 = .ok .dispatch ∧
    decodeIn .stateCode 0b0110#32 = .ok .dsWait ∧
    decodeIn .stateCode 0b0111#32 = .reject (.reservedState 7#4) := by decide

/-- R115: bit 0 START, bits 2:1 MODE, bits 31:3 ignored. -/
theorem test_decode_ctrlWord :
    decodeIn .ctrlWord 0b110#32 = .ok (.setMode 3#2) ∧
    decodeIn .ctrlWord 0b001#32 = .ok .startAuto ∧
    decodeIn .ctrlWord 0b011#32 = .ok .startExpectArp ∧
    decodeIn .ctrlWord 0b101#32 = .ok .startExpectIpv4 ∧
    decodeIn .ctrlWord 0b111#32 = .ok .startReserved ∧
    decodeIn .ctrlWord 0b11111111111111111111111111111011#32 = .ok .startExpectArp := by decide

/-- R117. -/
theorem test_decode_dsClass :
    decodeIn .dsClass 0b0#32 = .ok .arpDecode ∧ decodeIn .dsClass 0b1#32 = .ok .ipv4Decode ∧
    decodeIn .dsClass 0b10#32 = .reject (.tooWide .dsClass 2#32) := by decide

/-- R111. -/
theorem test_decode_arpProto :
    decodeIn .arpProto 0b0000100000000000#32 = .ok .arpBodyIpv4 ∧
    decodeIn .arpProto 0b1000011011011101#32 = .ok (.arpBodyOther 0x86DD#16) := by decide

/-- R114: bit 7 copy, bits 6:5 class, bits 4:0 number; the decision is on bits 4:0 alone. -/
theorem test_decode_optType :
    decodeIn .optType 0b00000000#32 = .ok (.optEol 0#1 0#2) ∧
    decodeIn .optType 0b10100000#32 = .ok (.optEol 1#1 1#2) ∧
    decodeIn .optType 0b10000010#32 = .ok (.optTlv 1#1 0#2 2#5) ∧
    decodeIn .optType 0b01000001#32 = .ok (.optTlv 0#1 2#2 1#5) := by decide

/-- Bare table words (log 3): a 16-bit word is an EtherType, a byte a STATE code where it is one. -/
theorem test_decode_tableWord : decodeTableWord 16 0x0806 = some .etypeArp ∧
    decodeTableWord 8 3 = some .tagRead ∧ decodeTableWord 8 0x82 = some (.optTlv 1#1 0#2 2#5) ∧
    decodeTableWord 32 5 = some .startExpectIpv4 ∧ decodeTableWord 8 7 = some .startReserved := by
  decide

/-- The first step after reset runs the placed instruction: VLAN_TPID answers VLAN. -/
theorem test_placed_vlanTpid : goesTo (step (State.reset.withFetchWord 16 0x8100))
    (fun t => t.units.cls = .vlan && t.moves = []) = true := by decide

/-- The first step after reset runs the placed instruction: ETYPE_LATCH goes to DISPATCH. -/
theorem test_placed_etypeLatch : goesTo (step (State.reset.withFetchWord 8 4))
    (fun t => t.state = 0x5#4) = true := by decide

/-! ### One step of each instruction -/

/-- R140. -/
theorem test_classifier : goesTo (exec .vlanTpid State.reset) (fun t => t.units.cls = .vlan) = true ∧
    goesTo (exec .etypeArp State.reset) (fun t => t.units.cls = .arp) = true ∧
    goesTo (exec .etypeIpv4 State.reset) (fun t => t.units.cls = .ipv4) = true ∧
    goesTo (exec (.etypeOther 0x88A8#16) State.reset) (fun t => t.units.cls = .other) = true := by
  decide

/-- R151 at the boundary LEN = 12. -/
theorem test_ethAddr : goesTo (exec .ethAddr (parsing 0x1#4 0 0 addrs))
    (fun t => t.off = 12#16 && t.state = 0x2#4 && t.readReg .addrViews = 0x06060600#32) = true := by
  decide

/-- R151, R244: LEN = 11 ends the parse with TOO_SHORT; STATUS reads 0x12. -/
theorem test_ethAddr_short : goesTo (exec .ethAddr (parsing 0x1#4 0 0 addrs.tail))
    (fun t => t.state = 0x0#4 && t.readReg .status = 0x00000012#32) = true := by decide

/-- R162: the tag code at 12 leads to TAG_READ, and OFF stays. -/
theorem test_tagPeek : goesTo (exec .tagPeek (parsing 0x2#4 12 0 taggedFrame))
    (fun t => t.code = 0x8100#16 && t.state = 0x3#4 && t.off = 12#16) = true := by decide

/-- R162: the code at 16 is no tag and leads to ETYPE_LATCH. -/
theorem test_tagPeek_other : goesTo (exec .tagPeek (parsing 0x2#4 16 1 taggedFrame))
    (fun t => t.code = 0x1234#16 && t.state = 0x4#4 && t.off = 16#16) = true := by decide

/-- R164: the tag control field 0xA005 is appended. -/
theorem test_tagRead : goesTo (exec .tagRead (parsing 0x3#4 12 0 taggedFrame))
    (fun t => t.readReg (.vlanTag 0) = 0x0000A005#32 && t.readReg .vlanInfo = 0x00040001#32 &&
      t.off = 16#16 && t.state = 0x2#4) = true := by decide

/-- R164: the accumulator of two is full. -/
theorem test_tagRead_overflow : goesTo (exec .tagRead (parsing 0x3#4 12 2 taggedFrame))
    (fun t => t.readReg .status = 0x00000062#32 && t.vlanTag = []) = true := by decide

/-- R238: EtherType at 12, payload at 14 with two bytes. -/
theorem test_etypeLatch : goesTo (exec .etypeLatch
    { parsing 0x4#4 12 0 (addrs ++ [0x12#8, 0x34#8, 0x00#8, 0x00#8]) with code := 0x1234#16 })
    (fun t => t.readReg .etherType = 0x000C1234#32 && t.readReg .payload = 0x0002000E#32 &&
      t.off = 14#16) = true := by decide

/-- R240: AUTO with an unknown code ends the parse, STATUS 0x0E. -/
theorem test_dispatch_unknown : goesTo (exec .dispatch (dispatching 0x1234#16 .auto))
    (fun t => t.readReg .status = 0x0000000E#32 && t.state = 0x0#4) = true := by decide

/-- R240: EXPECT_ARP with an IPv4 code is NOT_ARP, and the class is reported: STATUS 0x4A. -/
theorem test_dispatch_notArp : goesTo (exec .dispatch (dispatching 0x0800#16 .expectArp))
    (fun t => t.readReg .status = 0x0000004A#32 && t.ds.req = false) = true := by decide

/-- R243: an answer 2 is propagated with ERR_DS = 1. -/
theorem test_dsWait : goesTo (exec .dsWait (answered 2#4))
    (fun t => t.readReg .status = 0x00000126#32 && t.ds.req = false && t.ds.resp = 2#4) = true := by
  decide

/-- R115: MODE <- 2, CTRL reads 4. -/
theorem test_setMode : goesTo (exec (.setMode 2#2) State.reset)
    (fun t => t.readReg .ctrl = 0x00000004#32 && t.state = 0x0#4) = true := by decide

/-- R230: an accepted START leaves STATUS = 1. -/
theorem test_startAuto : goesTo (exec .startAuto (loaded taggedFrame))
    (fun t => t.readReg .status = 0x00000001#32 && t.lenL = 18#16 && t.state = 0x1#4) = true := by
  decide

/-- R230. -/
theorem test_startExpect :
    goesTo (exec .startExpectArp (loaded taggedFrame)) (fun t => t.modeL = .expectArp) = true ∧
    goesTo (exec .startExpectIpv4 (loaded taggedFrame)) (fun t => t.modeL = .expectIpv4) = true := by
  decide

/-- R87: the length does not fit. -/
theorem test_startAuto_tooLong : refuses (exec .startAuto { loaded [] with frameLen := 65#16 })
    .startTooLong = true := by decide

/-- R231: MODE <- 3 and no parse. -/
theorem test_startReserved : goesTo (exec .startReserved (loaded taggedFrame))
    (fun t => t.readReg .ctrl = 0x00000006#32 && t.state = 0x0#4) = true := by decide

/-- R180, R190: an ARP body for IPv4 of 28 bytes at 0. -/
theorem test_arpDecode : goesTo (exec .arpDecode (waiting .arp (arpBytes 0x08#8 0x00#8 20)))
    (fun t => t.ds.resp = 0#4 && t.ds.ack && t.readReg .arpFmt = 0x08000001#32 &&
      t.readReg .arpLenOp = 0x00010406#32 && t.readReg .arpTpa = 0x00040018#32) = true := by decide

/-- R180, R182: a body of other widths needs 32 bytes. -/
theorem test_arpDecode_short : goesTo (exec .arpDecode (waiting .arp (arpBytes 0x86#8 0xDD#8 23)))
    (fun t => t.ds.resp = 1#4 && t.ds.ack && t.readReg .arpFmt = 0x00000000#32) = true := by decide

/-- R203, R215: version 4, ihl 5. -/
theorem test_ipv4Decode : goesTo (exec .ipv4Decode (waiting .ipv4 (ipBytes 0x45#8 [])))
    (fun t => t.ds.resp = 0#4 && t.readReg .ipVerIhl = 0x00000045#32 &&
      t.readReg .ipDst = 0x00040010#32 && t.readReg .ipOptInfo = 0x00140000#32) = true := by decide

/-- R208, R209, R216: one option of length 3, then EOL. -/
theorem test_ipv4Decode_option : goesTo
    (exec .ipv4Decode (waiting .ipv4 (ipBytes 0x46#8 [0x82#8, 0x03#8, 0xFF#8, 0x00#8])))
    (fun t => t.ds.resp = 0#4 && t.readReg .ipOptInfo = 0x00140401#32 &&
      t.readReg (.ipOpt 0) = 0x00160382#32) = true := by decide

/-- R182. -/
theorem test_arpBody :
    goesTo (exec .arpBodyIpv4 State.reset) (fun t => t.units.widths = ⟨6, 4⟩) = true ∧
    goesTo (exec (.arpBodyOther 0x86DD#16) State.reset) (fun t => t.units.widths = ⟨6, 6⟩) = true := by
  decide

/-- A walk at an option region's first byte. -/
def atOption (bs : List Byte) : State :=
  { loaded bs with units := ⟨.other, ⟨0, 0⟩, ⟨0, bs.length, [], .walking⟩⟩ }

/-- R209. -/
theorem test_optEol : goesTo (exec (.optEol 1#1 3#2) (atOption [0xE0#8]))
    (fun t => t.units.walk.status = .ended && t.units.walk.opts = []) = true := by decide

/-- R208: the entry is appended and q moves past it. -/
theorem test_optTlv : goesTo (exec (.optTlv 1#1 0#2 2#5) (atOption [0x82#8, 0x03#8, 0x00#8, 0x00#8]))
    (fun t => t.units.walk.q = 3 && t.units.walk.opts = [⟨1#1, 0#2, 2#5, 3#8, 2#16⟩]) = true := by
  decide

/-- R210: length 1 is malformed. -/
theorem test_optTlv_invalid : goesTo (exec (.optTlv 0#1 0#2 1#5) (atOption [0x01#8, 0x01#8]))
    (fun t => t.units.walk.status = .invalid) = true := by decide

/-- R106: the fields of 0xA005. -/
theorem test_tagControl : tagPriority 0xA005#16 = 5#3 ∧ tagDropEligible 0xA005#16 = false ∧
    tagDropEligible 0x1000#16 = true ∧ tagVlanId 0xA005#16 = 5#12 := by decide

/-! ### The host's ports -/

/-- R43, R50, R73, R76, R86. -/
theorem test_hostAccess :
    goesTo (hostAccess (.regWrite 0x008 .word 0xFFFF0040#32) State.reset)
      (fun t => t.readReg .frameLen = 0x00000040#32) = true ∧
    goesTo (hostAccess (.regRead 0x01C .word) State.reset)
      (fun t => t.reply = some (.word 0x05F20008#32)) = true ∧
    goesTo (hostAccess (.regRead 0x020 .word) State.reset)
      (fun t => t.reply = some (.word 0#32)) = true ∧
    refuses (hostAccess (.regRead 0x002 .word) State.reset) .registerAccessForm = true ∧
    refuses (hostAccess (.bufWrite 1522 0#8) State.reset) .bufferRange = true ∧
    refuses (hostAccess (.bufWrite 0 0#8) (answered 0#4)) .bufferBusy = true ∧
    goesTo (hostAccess (.bufRead 13) (loaded taggedFrame))
      (fun t => t.reply = some (.byte 0x00#8)) = true := by decide

/-! ### Witnesses: the hypotheses of the statements, met by concrete states and operands -/

/-- DecodeOfEncode: well-formed terms at the ends of the operands' ranges. -/
theorem witness_DecodeOfEncode : (Instr.etypeOther 0#16).wf = true ∧
    (Instr.etypeOther 0xFFFF#16).wf = true ∧ (Instr.arpBodyOther 0x0801#16).wf = true ∧
    (Instr.optTlv 0#1 0#2 1#5).wf = true ∧ (Instr.optTlv 1#1 3#2 31#5).wf = true ∧
    (Instr.setMode 3#2).wf = true := by decide

/-- EncodeOfDecode: a CTRL word with ignored bits set decodes. -/
theorem witness_EncodeOfDecode : decodeIn .ctrlWord 0xFFFFFFFE#32 = .ok (.setMode 3#2) := by decide

/-- UnreachableStatesStop: the first and the last reserved code; the reserved mode at DISPATCH; a length
past a buffer of 64 bytes at each of the four reading operations, and a walk past it. -/
theorem witness_UnreachableStatesStop : 6 < (0x7#4).toNat ∧ 6 < (0xF#4).toNat ∧
    (State.reset.goto 0x7#4).moves = [] ∧ 6 < (State.reset.goto 0x7#4).state.toNat ∧
    (dispatching 0x0806#16 .reserved).modeL = .reserved ∧
    ({ loaded [] with lenL := 67#16, off := 63#16 } : State).off.toNat + 4 ≤ 67 ∧ 64 < 63 + 2 ∧
    (loaded []).vlanInfo.count ≠ (loaded []).config.vlanMaxDepth ∧
    (loaded []).config.maxFrameLen.toNat <
      ({ loaded [] with ds := ⟨true, .arp, 45#16, 20#16, false, 0#4⟩ } : State).ds.base.toNat + 20 ∧
    (loaded []).config.maxFrameLen.toNat <
      ((loaded []).setWalk ⟨0, 65, [], .walking⟩).units.walk.e := by decide

/-- StepRunsDecodedInstruction: a given move and an agent on its own, in each of the six code spaces. -/
theorem witness_StepRunsDecodedInstruction :
    (State.reset.setMoves [start .auto]).fetched? = some .startAuto ∧
    (parsing 0x2#4 12 0 taggedFrame).fetched? = some .tagPeek ∧
    (waiting .ipv4 []).fetched? = some .ipv4Decode ∧
    (State.reset.setMoves [.classify 0x8100#16]).fetched? = some .vlanTpid ∧
    (State.reset.setMoves [.selectWidths 0x0800#16]).fetched? = some .arpBodyIpv4 ∧
    (State.reset.setMoves [.optionByte 0xE0#8]).fetched? = some (.optEol 1#1 3#2) := by decide

/-- StepRunsDecodedInstruction, its other clauses: a host access, an EXTERNAL answer, reset, a
downstream unit without a request, and a block with nothing enabled. -/
theorem witness_StepRunsDecodedInstruction_moves :
    (State.reset.setMoves [.host (.bufRead 0), .reset]).moves = .host (.bufRead 0) :: [.reset] ∧
    (State.reset.setMoves [.external ⟨0#4, none, none, []⟩]).moves =
      .external ⟨0#4, none, none, []⟩ :: [] ∧
    (State.reset.setMoves [.reset]).moves = .reset :: [] ∧
    (State.reset.setMoves [.downstream]).moves = .downstream :: [] ∧
    (State.reset.setMoves [.downstream]).referenceEnabled = false ∧
    State.reset.moves = [] ∧ State.reset.engineEnabled = false ∧
    State.reset.referenceEnabled = false := by decide

/-- PlacedWordIsFetched: a word of each of the four spaces a bare word is read in. -/
theorem witness_PlacedWordIsFetched : decodeTableWord 16 0xFFFF = some (.etypeOther 0xFFFF#16) ∧
    decodeTableWord 8 6 = some .dsWait ∧ decodeTableWord 32 0xFFFFFFFF = some .startReserved ∧
    decodeTableWord 8 0xFF = some (.optTlv 1#1 3#2 31#5) := by decide

/-- ClassifierRowsAnswer: a code beside each exact one. -/
theorem witness_ClassifierRowsAnswer : 0x8101#16 ≠ 0x8100#16 ∧ 0x8101#16 ≠ 0x0806#16 ∧
    0x8101#16 ≠ 0x0800#16 ∧ 0x0801#16 ≠ 0x0800#16 := by decide

/-- IdleWaitsForStart: an accepted START leaves IDLE. -/
theorem witness_IdleWaitsForStart : State.reset.state = 0x0#4 ∧
    goesTo (step (State.reset.setMoves [start .auto])) (fun t => t.state != 0x0#4) = true := by decide

/-- EthAddrLatchesViews: both sides of the boundary. -/
theorem witness_EthAddrLatchesViews : (parsing 0x1#4 0 0 addrs.tail).lenL.toNat < 12 ∧
    12 ≤ (parsing 0x1#4 0 0 addrs).lenL.toNat := by decide

/-- A frame whose last two bytes are the tag code: the tag control field is missing. -/
def cutFrame : List Byte := addrs ++ [0x81#8, 0x00#8]

/-- TagPeekReadsCode: each clause, at its boundary. -/
theorem witness_TagPeekReadsCode :
    (∀ s ∈ [parsing 0x2#4 13 0 cutFrame, parsing 0x2#4 12 0 cutFrame, parsing 0x2#4 16 1 taggedFrame],
      s.lenL.toNat ≤ s.config.maxFrameLen.toNat) ∧
    (parsing 0x2#4 13 0 cutFrame).lenL.toNat < (parsing 0x2#4 13 0 cutFrame).off.toNat + 2 ∧
    (parsing 0x2#4 12 0 cutFrame).off.toNat + 2 ≤ (parsing 0x2#4 12 0 cutFrame).lenL.toNat ∧
    (parsing 0x2#4 12 0 cutFrame).be16 12 = 0x8100#16 ∧
    (parsing 0x2#4 16 1 taggedFrame).off.toNat + 2 ≤ (parsing 0x2#4 16 1 taggedFrame).lenL.toNat ∧
    (parsing 0x2#4 16 1 taggedFrame).be16 16 ≠ 0x8100#16 := by decide

/-- A frame of exactly one tag and nothing behind it. -/
def oneTag : List Byte := cutFrame ++ [0xFF#8, 0xFF#8]

/-- TagReadAppendsTag: each clause, at its boundary. -/
theorem witness_TagReadAppendsTag :
    (∀ s ∈ [parsing 0x3#4 12 0 cutFrame, parsing 0x3#4 12 2 oneTag, parsing 0x3#4 12 1 oneTag],
      s.lenL.toNat ≤ s.config.maxFrameLen.toNat) ∧
    (parsing 0x3#4 12 0 cutFrame).lenL.toNat < (parsing 0x3#4 12 0 cutFrame).off.toNat + 4 ∧
    (parsing 0x3#4 12 2 oneTag).off.toNat + 4 ≤ (parsing 0x3#4 12 2 oneTag).lenL.toNat ∧
    (parsing 0x3#4 12 2 oneTag).vlanInfo.count = (parsing 0x3#4 12 2 oneTag).config.vlanMaxDepth ∧
    (parsing 0x3#4 12 1 oneTag).off.toNat + 4 ≤ (parsing 0x3#4 12 1 oneTag).lenL.toNat ∧
    (parsing 0x3#4 12 1 oneTag).vlanInfo.count ≠ (parsing 0x3#4 12 1 oneTag).config.vlanMaxDepth ∧
    4 * ((parsing 0x3#4 12 1 oneTag).vlanInfo.count.toNat + 1) < 65536 := by decide

/-- EtypeLatchWritesPayloadView: the EtherType ends the frame. -/
theorem witness_EtypeLatchWritesPayloadView : (parsing 0x4#4 12 0 cutFrame).off.toNat + 2 ≤
    (parsing 0x4#4 12 0 cutFrame).lenL.toNat := by decide

/-- DispatchBranches: each mode with a code of each of its two sides. -/
theorem witness_DispatchBranches :
    (dispatching 0x1234#16 .auto).code ≠ 0x8100#16 ∧ (dispatching 0x1234#16 .auto).modeL = .auto ∧
    (dispatching 0x1234#16 .auto).code ≠ 0x0806#16 ∧
    (dispatching 0x1234#16 .auto).code ≠ 0x0800#16 ∧
    (dispatching 0x0806#16 .auto).code ≠ 0x8100#16 ∧ (dispatching 0x0806#16 .auto).modeL = .auto ∧
    (dispatching 0x0806#16 .expectArp).modeL = .expectArp ∧
    (dispatching 0x0800#16 .auto).code ≠ 0x8100#16 ∧ (dispatching 0x0800#16 .auto).modeL = .auto ∧
    (dispatching 0x0800#16 .expectIpv4).modeL = .expectIpv4 ∧
    (dispatching 0x0800#16 .expectArp).code ≠ 0x0806#16 ∧
    (dispatching 0x0806#16 .expectIpv4).code ≠ 0x0800#16 ∧ ParseMode.auto ≠ .reserved ∧
    ParseMode.expectArp ≠ .reserved ∧ ParseMode.expectIpv4 ≠ .reserved := by decide

/-- DsWaitPropagatesAnswer: the state code, OK, and an error. -/
theorem witness_DsWaitPropagatesAnswer : (waiting .arp []).state = 0x6#4 ∧
    (waiting .arp []).ds.ack = false ∧ (answered 0#4).ds.ack = true ∧ (answered 0#4).ds.resp = 0#4 ∧
    (answered 3#4).ds.ack = true ∧ (answered 3#4).ds.resp ≠ 0#4 := by decide

/-- EngineErrorsArePrecise: TOO_SHORT, NOT_ARP and a propagated error. -/
theorem witness_EngineErrorsArePrecise :
    (parsing 0x2#4 13 0 cutFrame).status.done = false ∧
    goesTo (exec .tagPeek (parsing 0x2#4 13 0 cutFrame))
      (fun t => t.status.done && t.status.errCode != 0#4) = true ∧
    (dispatching 0x0800#16 .expectArp).status.done = false ∧
    goesTo (exec .dispatch (dispatching 0x0800#16 .expectArp))
      (fun t => t.status.done && t.status.errCode != 0#4) = true ∧
    (answered 3#4).status.done = false ∧
    goesTo (exec .dsWait (answered 3#4)) (fun t => t.status.done && t.status.errCode != 0#4) = true := by
  decide

/-- StartBeginsParseOrIsIgnored: LEN at MAX_FRAME_LEN, one above, and a busy block. -/
theorem witness_StartBeginsParseOrIsIgnored : (loaded taggedFrame).state = 0x0#4 ∧
    ((loaded taggedFrame).setFrameLen 64#16).frameLen.toNat ≤
      ((loaded taggedFrame).setFrameLen 64#16).config.maxFrameLen.toNat ∧
    ((loaded taggedFrame).setFrameLen 65#16).config.maxFrameLen.toNat <
      ((loaded taggedFrame).setFrameLen 65#16).frameLen.toNat ∧
    (parsing 0x1#4 0 0 addrs).state ≠ 0x0#4 := by decide

/-- CtrlWriteAlwaysUpdatesMode: a START while busy, and a plain mode write with ignored bits set. -/
theorem witness_CtrlWriteAlwaysUpdatesMode :
    goesTo (step ((parsing 0x1#4 0 0 addrs).setMoves [.host (.regWrite 0x000 .word 0x3#32)]))
      (fun _ => true) = true ∧ (parsing 0x1#4 0 0 addrs).state ≠ 0x0#4 ∧
    goesTo (step (State.reset.setMoves [.host (.regWrite 0x000 .word 0xFFFFFFFC#32)]))
      (fun _ => true) = true ∧ (0xFFFFFFFC#32).extractLsb' 0 1 = 0#1 := by decide

/-- ArpDecodeResult: the three lengths at their boundaries, for both width selections. -/
theorem witness_ArpDecodeResult :
    (waiting .arp ((arpBytes 0x08#8 0x00#8 0).take 7)).ds.len.toNat < 8 ∧
    (waiting .arp (arpBytes 0x08#8 0x00#8 20)).be16 2 = 0x0800#16 ∧
    8 ≤ (waiting .arp (arpBytes 0x08#8 0x00#8 19)).ds.len.toNat ∧
    (waiting .arp (arpBytes 0x08#8 0x00#8 19)).ds.len.toNat < 8 + 2 * 6 + 2 * 4 ∧
    8 + 2 * 6 + 2 * 4 ≤ (waiting .arp (arpBytes 0x08#8 0x00#8 20)).ds.len.toNat ∧
    (waiting .arp (arpBytes 0x86#8 0xDD#8 24)).be16 2 ≠ 0x0800#16 ∧
    (waiting .arp (arpBytes 0x86#8 0xDD#8 23)).ds.len.toNat < 8 + 2 * 6 + 2 * 6 ∧
    8 + 2 * 6 + 2 * 6 ≤ (waiting .arp (arpBytes 0x86#8 0xDD#8 24)).ds.len.toNat ∧
    (waiting .arp (arpBytes 0x86#8 0xDD#8 24)).ds.base.toNat +
      (waiting .arp (arpBytes 0x86#8 0xDD#8 24)).ds.len.toNat ≤ 64 := by decide

/-- ArpBodySelectsWidths: a code next to 0x0800. -/
theorem witness_ArpBodySelectsWidths : 0x0801#16 ≠ 0x0800#16 := by decide

/-- A window an EXTERNAL unit draws. -/
def drawnArp : ArpWindow := { ArpWindow.zero with op := 1#16 }

/-- An IPv4 window an EXTERNAL unit draws, with two options. -/
def drawnIp : IpWindow := { IpWindow.zero with optCount := 2#8 }

/-- A block whose EXTERNAL unit has an open ARP request. -/
def external : State := { waiting .arp [] with dsUnit := .external }

/-- A block whose EXTERNAL unit has an open IPv4 request. -/
def externalIp : State := { waiting .ipv4 [] with dsUnit := .external }

/-- An answer of an EXTERNAL unit that draws everything it can: both windows, the last slot that the
window counts and the first that it does not. -/
def drawnAnswer (resp : BitVec 4) : ExternalAnswer :=
  ⟨resp, some drawnArp, some drawnIp, [(1, 1#32), (2, 1#32)]⟩

/-- R247, 93 row 26: OK to an ARP request writes the ARP window, and the IPv4 window and slots stay. -/
theorem test_external_arp : goesTo (externalStep (drawnAnswer 0#4) external)
    (fun t => t.arp = drawnArp && t.ip = external.ip && t.ipOpt = [] && t.ds.ack) = true := by decide

/-- R217, 93 row 26: OK to an IPv4 request writes the slots below OPT_COUNT; the ARP window stays. -/
theorem test_external_ipv4 : goesTo (externalStep (drawnAnswer 0#4) externalIp)
    (fun t => t.ip = drawnIp && t.ipOpt = [(1, 1#32)] && t.arp = externalIp.arp) = true := by decide

/-- R277, 93 row 28: an error answer leaves every window. -/
theorem test_external_error : goesTo (externalStep (drawnAnswer 3#4) externalIp)
    (fun t => t.ip = externalIp.ip && t.ipOpt = [] && t.arp = externalIp.arp && t.ds.resp = 3#4 &&
      t.ds.ack) = true := by decide

/-- ArpWindowWriters: the reference unit, an EXTERNAL unit and reset each change the window. -/
theorem witness_ArpWindowWriters :
    goesTo (step (waiting .arp (arpBytes 0x08#8 0x00#8 20)))
      (fun t => t.arp != (waiting .arp (arpBytes 0x08#8 0x00#8 20)).arp) = true ∧
    goesTo (step (external.setMoves [.external (drawnAnswer 0#4)]))
      (fun t => t.arp != external.arp) = true ∧
    goesTo (step ((State.reset.setArp drawnArp).setMoves [.reset])) (fun t => t.arp != drawnArp) = true := by
  decide

/-- ArpWindowWords: an OK of each width selection. -/
theorem witness_ArpWindowWords :
    goesTo (exec .arpDecode (waiting .arp (arpBytes 0x08#8 0x00#8 20)))
      (fun t => t.ds.resp = 0#4) = true ∧
    goesTo (exec .arpDecode (waiting .arp (arpBytes 0x86#8 0xDD#8 24)))
      (fun t => t.ds.resp = 0#4) = true := by decide

/-- A header with ihl = 6 and one options word. -/
def oneWord (a b c d : Byte) : State := waiting .ipv4 (ipBytes 0x46#8 [a, b, c, d])

/-- Ipv4HeaderChecks: R = 19; ihl 4 and ihl 6 at R = 20; ihl 5 at R = 20. -/
theorem witness_Ipv4HeaderChecks :
    (waiting .ipv4 ((ipBytes 0x45#8 []).take 19)).ds.len.toNat < 20 ∧
    20 ≤ (waiting .ipv4 (ipBytes 0x44#8 [])).ds.len.toNat ∧
    (((waiting .ipv4 (ipBytes 0x44#8 [])).bufByte 0).extractLsb' 0 4).toNat < 5 ∧
    (waiting .ipv4 (ipBytes 0x46#8 [])).ds.len.toNat <
      4 * (((waiting .ipv4 (ipBytes 0x46#8 [])).bufByte 0).extractLsb' 0 4).toNat ∧
    5 ≤ (((waiting .ipv4 (ipBytes 0x45#8 [])).bufByte 0).extractLsb' 0 4).toNat ∧
    4 * (((waiting .ipv4 (ipBytes 0x45#8 [])).bufByte 0).extractLsb' 0 4).toNat ≤
      (waiting .ipv4 (ipBytes 0x45#8 [])).ds.len.toNat ∧
    (waiting .ipv4 (ipBytes 0x46#8 [])).ds.base.toNat +
      (waiting .ipv4 (ipBytes 0x46#8 [])).ds.len.toNat ≤ 64 := by decide

/-- Ipv4DecodeFollowsOptionList: the header hypotheses, at ihl 6 with R = 24. -/
theorem witness_Ipv4DecodeFollowsOptionList :
    (oneWord 0x82#8 0x03#8 0xFF#8 0x00#8).ds.base.toNat = 0 ∧
    (oneWord 0x82#8 0x03#8 0xFF#8 0x00#8).ds.len.toNat = 24 ∧
    (((oneWord 0x82#8 0x03#8 0xFF#8 0x00#8).bufByte 0).extractLsb' 0 4).toNat = 6 ∧
    0 + 24 ≤ (oneWord 0x82#8 0x03#8 0xFF#8 0x00#8).config.maxFrameLen.toNat := by decide

/-- Its first clause: an entry of length 3 and an EOL. -/
theorem witness_Ipv4DecodeFollowsOptionList_some :
    OptionList (oneWord 0x82#8 0x03#8 0xFF#8 0x00#8).bufByte 24 20 [⟨1#1, 0#2, 2#5, 3#8, 22#16⟩] :=
  .entry (q := 20) (rest := []) (by decide) (by decide) (by decide) (by decide)
    (.eol (by decide) (by decide))

/-- Its second clause: a length byte 1 leaves no list. -/
theorem witness_Ipv4DecodeFollowsOptionList_none :
    ¬ ∃ opts : List OptEntry, OptionList (oneWord 0x82#8 0x01#8 0x00#8 0x00#8).bufByte 24 20 opts := by
  rintro ⟨opts, h⟩
  cases h with
  | atEnd h => exact absurd h (by decide)
  | eol _ h => exact absurd h (by decide)
  | entry _ _ h _ _ => exact absurd h (by decide)

/-- OptionWalkEndsWithinTwentyEntries: the largest header length. -/
theorem witness_OptionWalkEndsWithinTwentyEntries : 15 ≤ 15 := by decide

/-- OptionRowsTurnTheWalk: a walk at an entry, at the region's end, at a cut entry, at a bad length, and
over. -/
theorem witness_OptionRowsTurnTheWalk :
    (1#5 ≠ 0#5) ∧
    (∀ s ∈ [atOption [0x01#8, 0x02#8], atOption [], atOption [0x01#8], atOption [0x01#8, 0x01#8],
        atOption [0x01#8, 0x03#8]],
      s.units.walk.status = .walking ∧ s.units.walk.e ≤ s.config.maxFrameLen.toNat) ∧
    (atOption []).units.walk.e ≤ (atOption []).units.walk.q ∧
    (atOption [0x01#8]).units.walk.e < (atOption [0x01#8]).units.walk.q + 2 ∧
    ((atOption [0x01#8, 0x01#8]).bufByte 1).toNat < 2 ∧
    (atOption [0x01#8, 0x03#8]).units.walk.e < 0 + ((atOption [0x01#8, 0x03#8]).bufByte 1).toNat ∧
    (2 ≤ ((atOption [0x01#8, 0x02#8]).bufByte 1).toNat ∧
      0 + ((atOption [0x01#8, 0x02#8]).bufByte 1).toNat ≤ (atOption [0x01#8, 0x02#8]).units.walk.e) ∧
    State.reset.units.walk.status ≠ .walking ∧ State.reset.units.walk.e ≤ 1522 := by decide

/-- EolFirstGivesNoOptions: an EOL with copy and class set, and padding that is not zero. -/
theorem witness_EolFirstGivesNoOptions :
    (oneWord 0xE0#8 0xFF#8 0xFF#8 0xFF#8).ds.len.toNat = 24 ∧
    5 < (((oneWord 0xE0#8 0xFF#8 0xFF#8 0xFF#8).bufByte 0).extractLsb' 0 4).toNat ∧
    4 * (((oneWord 0xE0#8 0xFF#8 0xFF#8 0xFF#8).bufByte 0).extractLsb' 0 4).toNat ≤ 24 ∧
    ((oneWord 0xE0#8 0xFF#8 0xFF#8 0xFF#8).bufByte 20).extractLsb' 0 5 = 0#5 := by decide

/-- Ipv4WindowWords: an OK. -/
theorem witness_Ipv4WindowWords :
    goesTo (exec .ipv4Decode (oneWord 0x82#8 0x03#8 0xFF#8 0x00#8)) (fun t => t.ds.resp = 0#4) = true := by
  decide

/-- Ipv4WindowWriters: each of the three writers. -/
theorem witness_Ipv4WindowWriters :
    goesTo (step (oneWord 0x82#8 0x03#8 0xFF#8 0x00#8)) (fun t => t.ipOpt != []) = true ∧
    goesTo (step (externalIp.setMoves [.external (drawnAnswer 0#4)]))
      (fun t => t.ip != externalIp.ip && t.ipOpt != []) = true ∧
    goesTo (step ((State.reset.setIp drawnIp []).setMoves [.reset])) (fun t => t.ip != drawnIp) = true := by
  decide

/-- EngineFrame, DownstreamFrame, CommandFrame and CombinationalRowFrame: instructions of each family
complete. -/
theorem witness_Frames :
    goesTo (exec .tagRead (parsing 0x3#4 12 0 taggedFrame)) (fun _ => true) = true ∧
    goesTo (exec .arpDecode (waiting .arp (arpBytes 0x08#8 0x00#8 20))) (fun _ => true) = true ∧
    goesTo (exec .arpDecode (waiting .arp [])) (fun t => t.ds.resp != 0#4) = true ∧
    goesTo (exec .ipv4Decode (oneWord 0x82#8 0x03#8 0xFF#8 0x00#8)) (fun _ => true) = true ∧
    goesTo (exec .startAuto (loaded taggedFrame)) (fun _ => true) = true ∧
    goesTo (exec (.optTlv 1#1 0#2 2#5) (atOption [0x82#8, 0x02#8])) (fun _ => true) = true := by decide

/-- RegisterReadReturnsValue, ReadOnlyRegistersIgnoreWrites: the last option slot and the last tag slot
of a block of two. -/
theorem witness_MappedRegisters : 19 < 20 ∧ 1 < (loaded []).config.vlanMaxDepth.toNat ∧
    (Reg.ipOpt 19).offset = 0x38C ∧ (Reg.vlanTag 1).offset = 0x1004 ∧ Reg.vlanTag 1 ≠ .ctrl ∧
    Reg.vlanTag 1 ≠ .frameLen := by decide

/-- UnmappedOffsetsReadZero: the offset just behind the tag slots of a block of two. -/
theorem witness_UnmappedOffsetsReadZero : 0x1008 % 4 = 0 ∧
    ∀ r : Reg, (∀ j, r = .ipOpt j → j < 20) →
      (∀ i, r = .vlanTag i → i < (loaded []).config.vlanMaxDepth.toNat) → r.offset ≠ 0x1008 := by
  refine ⟨by decide, fun r hj hi => ?_⟩
  cases r with
  | ipOpt j => have := hj j rfl; simp only [Reg.offset]; omega
  | vlanTag i =>
    have h : i < 2 := hi i rfl
    simp only [Reg.offset]; omega
  | _ => simp [Reg.offset]

/-- OddRegisterAccessIsRefused: a narrow access and an unaligned one. -/
theorem witness_OddRegisterAccessIsRefused : AccessWidth.half ≠ .word ∧ 0x006 % 4 ≠ 0 := by decide

/-- FrameBufferPort: the last address that exists and the first that does not, idle and busy. -/
theorem witness_FrameBufferPort : 63 < (loaded []).config.maxFrameLen.toNat ∧
    (loaded []).status.busy = false ∧ (answered 0#4).status.busy = true ∧
    63 < (answered 0#4).config.maxFrameLen.toNat ∧ (loaded []).config.maxFrameLen.toNat ≤ 64 := by decide

/-- BufferChangesOnlyByHostOrReset and StatusWriters: steps that are no host byte write and no reset. -/
theorem witness_StatusWriters :
    goesTo (step (parsing 0x1#4 0 0 addrs.tail))
      (fun t => t.status != (parsing 0x1#4 0 0 addrs.tail).status) = true ∧
    goesTo (step ((loaded taggedFrame).setMoves [start .auto]))
      (fun t => t.status != (loaded taggedFrame).status) = true ∧
    (parsing 0x1#4 0 0 addrs.tail).moves = [] := by decide

/-- ResetStepSetsResetValues: reset in the middle of a parse. -/
theorem witness_ResetStepSetsResetValues :
    ((parsing 0x3#4 12 1 oneTag).setMoves [.reset, start .auto]).moves = .reset :: [start .auto] := by
  decide

/-- ResetStateIsSound: the least legal parameters. -/
theorem witness_ResetStateIsSound : 14 ≤ (⟨1#16, 14#16⟩ : ConfigReg).maxFrameLen.toNat ∧
    1 ≤ (⟨1#16, 14#16⟩ : ConfigReg).vlanMaxDepth.toNat := by decide

/-- A frame of one tag and an ARP payload cut short. -/
def arpCut : List Byte := oneTag ++ [0x08#8, 0x06#8, 0x00#8, 0x01#8]

/-- A block at TAG_READ of a sound run. -/
def atTag : State := { parsing 0x3#4 12 0 arpCut with code := 0x8100#16 }

/-- A block in DS_WAIT of a sound run. -/
def atWait : State :=
  { parsing 0x6#4 18 1 arpCut with
    code := 0x0806#16
    status := ⟨true, false, .arp, 0#4, false⟩
    etherType := ⟨0x0806#16, 16#16⟩
    payload := ⟨18#16, 2#16⟩
    ds := ⟨true, .arp, 18#16, 2#16, false, 0#4⟩ }

/-- The first is sound. -/
theorem witness_Inv_atTag : atTag.Inv := by constructor <;> decide

/-- The second is sound. -/
theorem witness_Inv_atWait : atWait.Inv := by constructor <;> decide

/-- Their outcome relation. -/
theorem witness_OutcomeOk_atWait : atWait.OutcomeOk := by constructor <;> decide

/-- StepKeepsInvariant, StepKeepsOutcomes, SoundStatesNeverFault: sound states that take a step. -/
theorem witness_StepKeepsInvariant : atTag.Inv ∧ goesTo (step atTag) (fun _ => true) = true ∧
    atWait.Inv ∧ atWait.OutcomeOk ∧ goesTo (step atWait) (fun t => t.ds.ack) = true :=
  ⟨witness_Inv_atTag, by decide, witness_Inv_atWait, witness_OutcomeOk_atWait, by decide⟩

/-- A block at ETH_ADDR of a sound run. -/
def atAddr : State := { parsing 0x1#4 0 0 arpCut with addrViews := ⟨0#8, 0#8, 0#8, 0#8⟩ }

/-- A block at TAG_PEEK of a sound run, before its tag and behind it. -/
def atPeek (off count : Nat) : State := parsing 0x2#4 off count arpCut

/-- A block at ETYPE_LATCH of a sound run. -/
def atLatch : State := { parsing 0x4#4 16 1 arpCut with code := 0x0806#16 }

/-- A block at DISPATCH of a sound run, in a mode. -/
def atDispatch (m : ParseMode) : State :=
  { parsing 0x5#4 18 1 arpCut with
    code := 0x0806#16
    modeL := m
    etherType := ⟨0x0806#16, 16#16⟩
    payload := ⟨18#16, 2#16⟩ }

/-- A block in DS_WAIT of a sound run, with an answer. -/
def atAnswer : State := { atWait with ds := ⟨true, .arp, 18#16, 2#16, true, 1#4⟩ }

/-- EngineTransitionTable: a sound state for each STATE code, and for both branches of TAG_PEEK, DISPATCH
and DS_WAIT. -/
theorem witness_EngineTransitionTable_sound :
    (loaded arpCut).Inv ∧ atAddr.Inv ∧ (atPeek 12 0).Inv ∧ (atPeek 16 1).Inv ∧ atTag.Inv ∧
    atLatch.Inv ∧ (atDispatch .auto).Inv ∧ (atDispatch .expectIpv4).Inv ∧ atWait.Inv ∧ atAnswer.Inv := by
  refine ⟨?_, ?_, ?_, ?_, ?_, ?_, ?_, ?_, ?_, ?_⟩ <;> (constructor <;> decide)

/-- EngineTransitionTable: these states take an engine step, to the successor R249 lists. -/
theorem witness_EngineTransitionTable_next :
    goesTo (engineStep (loaded arpCut)) (fun t => t.state = 0x0#4) = true ∧
    goesTo (engineStep atAddr) (fun t => t.state = 0x2#4) = true ∧
    goesTo (engineStep (atPeek 12 0)) (fun t => t.state = 0x3#4) = true ∧
    goesTo (engineStep (atPeek 16 1)) (fun t => t.state = 0x4#4) = true ∧
    goesTo (engineStep atTag) (fun t => t.state = 0x2#4) = true ∧
    goesTo (engineStep atLatch) (fun t => t.state = 0x5#4) = true ∧
    goesTo (engineStep (atDispatch .auto)) (fun t => t.state = 0x6#4) = true ∧
    goesTo (engineStep (atDispatch .expectIpv4)) (fun t => t.state = 0x0#4) = true ∧
    goesTo (engineStep atWait) (fun t => t.state = 0x6#4) = true ∧
    goesTo (engineStep atAnswer) (fun t => t.state = 0x0#4) = true := by decide

/-- SoundStatesNeverFault: a sound state whose next step is refused, by each of the two causes. -/
theorem witness_SoundStatesNeverFault :
    refuses (step (atTag.setMoves [.host (.bufWrite 0 0#8)])) .bufferBusy = true ∧
    refuses (step (external.setMoves [.external (drawnAnswer 4#4)]))
      .externalAnswer = true := by decide

/-- DeepAccumulatorNeverOverflows: a sound TAG_READ with MAX_FRAME_LEN = 23 and depth 2. -/
def shallow : State := { parsing 0x3#4 12 0 oneTag with
  code := 0x8100#16
  config := ⟨2#16, 23#16⟩ }

/-- Its hypotheses. -/
theorem witness_DeepAccumulatorNeverOverflows : shallow.Inv ∧ shallow.state = 0x3#4 ∧
    shallow.status.errCode = 0#4 ∧
    (shallow.config.maxFrameLen.toNat - 12) / 4 ≤ shallow.config.vlanMaxDepth.toNat ∧
    goesTo (exec .tagRead shallow) (fun _ => true) = true :=
  ⟨by constructor <;> decide, by decide, by decide, by decide, by decide⟩

/-- TagLoopResult: no tag, and two tags in a block of two. -/
theorem witness_TagLoopResult :
    (parsing 0x2#4 12 0 (addrs ++ [0x12#8, 0x34#8])).TagStack 14 0 ∧
    (parsing 0x2#4 12 0 (oneTag ++ [0x81#8, 0x00#8, 0x00#8, 0x07#8, 0x12#8, 0x34#8])).TagStack 22 2 ∧
    (parsing 0x2#4 12 0 []).moves = [] ∧ (parsing 0x2#4 12 0 []).state = 0x2#4 ∧
    (parsing 0x2#4 12 0 []).off = 12#16 ∧ (parsing 0x2#4 12 0 []).vlanInfo = ⟨0#16, 0#16⟩ ∧
    22 ≤ (parsing 0x2#4 12 0 []).config.maxFrameLen.toNat ∧
    2 ≤ (parsing 0x2#4 12 0 []).config.vlanMaxDepth.toNat := by
  unfold State.TagStack
  decide

/-- UnknownFrameParse: a loaded tagged frame of an unknown EtherType, before the START. -/
theorem witness_UnknownFrameParse :
    ((loaded taggedFrame).setMoves [start .auto]).TagStack 18 1 ∧
    ((loaded taggedFrame).setMoves [start .auto]).state = 0x0#4 ∧
    (loaded taggedFrame).frameLen.toNat = 18 ∧ 18 ≤ (loaded taggedFrame).config.maxFrameLen.toNat ∧
    1 ≤ (loaded taggedFrame).config.vlanMaxDepth.toNat ∧
    (loaded taggedFrame).be16 16 ≠ 0x0806#16 ∧ (loaded taggedFrame).be16 16 ≠ 0x0800#16 := by
  unfold State.TagStack
  decide

/-- An untagged ARP frame whose body is complete, and the same cut by one byte. -/
def arpFrame : List Byte := addrs ++ [0x08#8, 0x06#8] ++ arpBytes 0x08#8 0x00#8 20

/-- ArpFrameParse: both ends of its last two clauses. -/
theorem witness_ArpFrameParse :
    ((loaded arpFrame).setMoves [start .expectArp]).TagStack 42 0 ∧ (loaded arpFrame).dsUnit = .reference ∧
    (loaded arpFrame).frameLen.toNat = 42 ∧ (loaded arpFrame).be16 12 = 0x0806#16 ∧
    (loaded arpFrame).be16 (14 + 2) = 0x0800#16 ∧ 20 + 2 * 4 ≤ 42 - 14 ∧
    (loaded arpFrame.dropLast).TagStack 41 0 ∧ 41 - 14 < 20 + 2 * 4 := by
  unfold State.TagStack
  decide

/-- An untagged IPv4 frame: a header's first byte, 19 zero bytes, and what stands behind them. -/
def ipFrame (first : Byte) (rest : List Byte) : List Byte :=
  addrs ++ [0x08#8, 0x00#8] ++ ipBytes first rest

/-- An IPv4 frame of one options word: one entry of the given length byte, then EOL. -/
def ipOptFrame (len : Byte) : State :=
  (loaded (ipFrame 0x46#8 [0x82#8, len, 0xFF#8, 0x00#8])).setMoves [start .auto]

/-- Ipv4FrameParse: a whole header, a cut one, and header lengths 4 and 6. -/
theorem witness_Ipv4FrameParse :
    ((loaded (ipFrame 0x45#8 [])).setMoves [start .expectIpv4]).TagStack 34 0 ∧
    (loaded (ipFrame 0x45#8 [])).dsUnit = .reference ∧
    (loaded (ipFrame 0x45#8 [])).frameLen.toNat = 34 ∧
    (loaded (ipFrame 0x45#8 [])).be16 12 = 0x0800#16 ∧ 20 ≤ 34 - 14 ∧
    (((loaded (ipFrame 0x45#8 [])).bufByte 14).extractLsb' 0 4).toNat = 5 ∧
    (loaded (ipFrame 0x45#8 []).dropLast).TagStack 33 0 ∧ 33 - 14 < 20 ∧
    (((loaded (ipFrame 0x44#8 [])).bufByte 14).extractLsb' 0 4).toNat < 5 ∧
    34 - 14 < 4 * (((loaded (ipFrame 0x46#8 [])).bufByte 14).extractLsb' 0 4).toNat := by
  unfold State.TagStack
  decide

/-- Ipv4FrameParse, frames with options: ihl = 6 that fills a payload of 24 bytes. -/
theorem witness_Ipv4FrameParse_options :
    (ipOptFrame 0x03#8).TagStack 38 0 ∧ (ipOptFrame 0x01#8).TagStack 38 0 ∧
    (ipOptFrame 0x03#8).frameLen.toNat = 38 ∧ (ipOptFrame 0x03#8).be16 12 = 0x0800#16 ∧
    (((ipOptFrame 0x03#8).bufByte 14).extractLsb' 0 4).toNat = 6 ∧
    (((ipOptFrame 0x01#8).bufByte 14).extractLsb' 0 4).toNat = 6 ∧ 4 * 6 ≤ 38 - 14 := by
  unfold State.TagStack
  decide

/-- A length byte 3 gives an option list. -/
theorem witness_Ipv4FrameParse_some :
    OptionList (ipOptFrame 0x03#8).bufByte (14 + 4 * 6) (14 + 20) [⟨1#1, 0#2, 2#5, 3#8, 36#16⟩] :=
  .entry (q := 34) (rest := []) (by decide) (by decide) (by decide) (by decide)
    (.eol (by decide) (by decide))

/-- A length byte 1 leaves no list. -/
theorem witness_Ipv4FrameParse_none :
    ¬ ∃ opts : List OptEntry, OptionList (ipOptFrame 0x01#8).bufByte (14 + 4 * 6) (14 + 20) opts := by
  rintro ⟨opts, h⟩
  cases h with
  | atEnd h => exact absurd h (by decide)
  | eol _ h => exact absurd h (by decide)
  | entry _ _ h _ _ => exact absurd h (by decide)

/-- R210, R243, R277: a parse that ends in INVALID_OPTIONS reads STATUS 0x13A. -/
theorem test_dsWait_invalidOptions : goesTo
    (exec .dsWait { answered 3#4 with status := ⟨true, false, .ipv4, 0#4, false⟩ })
    (fun t => t.readReg .status = 0x0000013A#32) = true := by decide

/-- EveryParseEnds: a sound busy block with no host step given. -/
theorem witness_EveryParseEnds : atTag.Inv ∧ atTag.dsUnit = .reference ∧ atTag.moves = [] ∧
    atTag.state ≠ 0x0#4 := ⟨witness_Inv_atTag, by decide, by decide, by decide⟩

/-- UnansweredRequestHangs: an EXTERNAL unit with an open request. -/
theorem witness_UnansweredRequestHangs : external.dsUnit = .external ∧ external.state = 0x6#4 ∧
    external.ds.ack = false ∧ external.moves = [] := by decide

/-- ExternalAnswerBounds: a request of each class, OK, the first and the last error answer, the first
answer that is refused, a slot on each side of OPT_COUNT, and no open request. -/
theorem witness_ExternalAnswerBounds :
    (∀ s ∈ [external, externalIp], s.dsUnit = .external ∧ s.ds.req = true ∧ s.ds.ack = false) ∧
    external.ds.cls = .arp ∧ externalIp.ds.cls = .ipv4 ∧ (drawnAnswer 0#4).resp = 0#4 ∧
    (1#4).toNat ≤ 3 ∧ 1#4 ≠ 0#4 ∧ (3#4).toNat ≤ 3 ∧ 3#4 ≠ 0#4 ∧ 3 < (4#4).toNat ∧
    1 < drawnIp.optCount.toNat ∧ drawnIp.optCount.toNat ≤ 2 ∧
    { loaded [] with dsUnit := DsUnit.external }.ds.req = false := by decide

/-- EngineReadsOnlyFrame: two buffers that agree below LEN_L = 18 and differ at 18. -/
theorem witness_EngineReadsOnlyFrame :
    (∀ a : Nat, a < (parsing 0x3#4 12 0 taggedFrame).lenL.toNat →
      ((parsing 0x3#4 12 0 taggedFrame).withBuffer (cells 0 (taggedFrame ++ [0xFF#8])) 1).bufByte a =
        (parsing 0x3#4 12 0 taggedFrame).bufByte a) ∧
    goesTo (exec .tagRead (parsing 0x3#4 12 0 taggedFrame)) (fun _ => true) = true := by
  have h : (parsing 0x3#4 12 0 taggedFrame).lenL.toNat = 18 := by decide
  rw [h]
  exact ⟨by decide, by decide⟩

/-- DownstreamReadsOnlyPayload: two buffers that agree on the payload and differ behind it. -/
theorem witness_DownstreamReadsOnlyPayload :
    (∀ a : Nat, (waiting .ipv4 (ipBytes 0x45#8 [])).ds.base.toNat ≤ a →
      a < (waiting .ipv4 (ipBytes 0x45#8 [])).ds.base.toNat +
        (waiting .ipv4 (ipBytes 0x45#8 [])).ds.len.toNat →
      ((waiting .ipv4 (ipBytes 0x45#8 [])).withBuffer (cells 0 (ipBytes 0x45#8 [0xFF#8])) 1).bufByte a =
        (waiting .ipv4 (ipBytes 0x45#8 [])).bufByte a) ∧
    goesTo (exec .ipv4Decode (waiting .ipv4 (ipBytes 0x45#8 []))) (fun _ => true) = true := by
  have h : (waiting .ipv4 (ipBytes 0x45#8 [])).ds.base.toNat = 0 := by decide
  have h' : (waiting .ipv4 (ipBytes 0x45#8 [])).ds.len.toNat = 20 := by decide
  rw [h, h']
  have h20 : ∀ a : Nat, a < 0 + 20 →
      ((waiting .ipv4 (ipBytes 0x45#8 [])).withBuffer (cells 0 (ipBytes 0x45#8 [0xFF#8])) 1).bufByte a =
        (waiting .ipv4 (ipBytes 0x45#8 [])).bufByte a := by decide
  exact ⟨fun a _ ha => h20 a ha, by decide⟩

/-- LatchedInputsDoNotAffectParse: an engine step and a reference step. -/
theorem witness_LatchedInputsDoNotAffectParse : goesTo (engineStep atTag) (fun _ => true) = true ∧
    goesTo (downstreamStep atWait) (fun _ => true) = true := by decide

end Sys2Proof.Tests
end

section
/-! SUPPORT and O6. Where a placed word ends up: the next step decodes it in its own space, one move
further on the list is as it was, and no frame-buffer byte is touched (log 2, log 3). -/

namespace Sys2Proof

theorem Decoded.instr?_eq_some {d : Decoded} {i : Instr} : d.instr? = some i ↔ d = .ok i := by
  cases d <;> simp [Decoded.instr?]

/-- A word wider than its space is no instruction, so one that decodes fits. -/
theorem toNat_lt_of_decodeIn_eq_ok {sp : Space} {w : Word} {i : Instr}
    (h : decodeIn sp w = .ok i) : w.toNat < 2 ^ sp.width := by
  by_contra hwide
  unfold decodeIn at h
  rw [if_pos (Nat.le_of_not_lt hwide)] at h
  cases h

theorem decodeTableWord_eq_some {nbits w : Nat} {i : Instr} :
    decodeTableWord nbits w = some i ↔
      ∃ sp, tableSpace nbits w = some sp ∧ decodeIn sp (BitVec.ofNat 32 w) = .ok i := by
  unfold decodeTableWord
  cases tableSpace nbits w with
  | none => simp
  | some sp => simp [Decoded.instr?_eq_some]

namespace Machine

/-- The host's write of a word to CTRL presents it as a command word (30_encoding.md R115). -/
theorem fetched?_setMoves_wreg_ctrl (s : State) (w : Word) (rest : List Move) :
    (s.setMoves (wreg .ctrl w :: rest)).fetched? = some (decodeCtrl w) := by
  simp [State.fetched?, wreg, HostAccess.instr?]

/-- The hand-off registers of a placed DS_CLASS word hold that word's bit (30_encoding.md R117). -/
theorem bit_ds_cls_placeWord_dsClass (w : Word) (s : State) :
    (placeWord .dsClass w s).ds.cls.bit = w.setWidth 1 := by
  rcases BitVec.eq_zero_or_eq_one (w.setWidth 1) with h | h <;> simp [placeWord, h, DsClass.bit]

/-- The next step reads a placed word as its space's decoder does, for every word that fits. -/
theorem fetched?_placeWord {sp : Space} {w : Word} (s : State) (hfit : w.toNat < 2 ^ sp.width) :
    (placeWord sp w s).fetched? = (decodeIn sp w).instr? := by
  unfold decodeIn
  rw [if_neg (Nat.not_le_of_lt hfit)]
  cases sp with
  | etherType => rfl
  | stateCode => rfl
  | ctrlWord => exact fetched?_setMoves_wreg_ctrl s w s.moves
  | dsClass => exact congrArg (some <| decodeDsClass ·) (bit_ds_cls_placeWord_dsClass w s)
  | arpProto => rfl
  | optType => rfl

@[simp] theorem placeWord_moves_tail (sp : Space) (w : Word) (s : State) :
    (placeWord sp w s).moves.tail = s.moves := by
  cases sp <;> rfl

@[simp] theorem placeWord_frameBuf (sp : Space) (w : Word) (s : State) :
    (placeWord sp w s).frameBuf = s.frameBuf := by
  cases sp <;> rfl

theorem State.withFetchWord_of_tableSpace (s : State) {nbits w : Nat} {sp : Space}
    (h : tableSpace nbits w = some sp) :
    s.withFetchWord nbits w = placeWord sp (BitVec.ofNat 32 w) s := by
  rw [State.withFetchWord, h]

/-- Settles O6: the space a bare word is read in is the one it is placed in, and a word that decodes
there fits the space, so the agent it is placed with presents it whole. -/
theorem placedWordIsFetched : Obligations.PlacedWordIsFetched := by
  intro s nbits w i h
  obtain ⟨sp, hsp, hdec⟩ := decodeTableWord_eq_some.mp h
  rw [s.withFetchWord_of_tableSpace hsp]
  refine ⟨?_, placeWord_moves_tail .., placeWord_frameBuf ..⟩
  rw [fetched?_placeWord s (toNat_lt_of_decodeIn_eq_ok hdec), hdec]
  rfl

end Machine
end Sys2Proof
end

section
/-! SUPPORT and O46. Every register update that a step makes keeps the invariant under the condition
the step makes it, so every operation and every agent's step does. -/

namespace Sys2Proof.Machine

namespace State.Inv

variable {s : State}

/-! ### Updates that no clause of the invariant speaks of -/

theorem setMoves (h : s.Inv) (ms : List Move) : (s.setMoves ms).Inv := { h with }
theorem setReply (h : s.Inv) (r : HostReply) : (s.setReply r).Inv := { h with }
theorem setFrameLen (h : s.Inv) (n : Half) : (s.setFrameLen n).Inv := { h with }
theorem setCtrlMode (h : s.Inv) (m : ParseMode) : (s.setCtrlMode m).Inv := { h with }
theorem setArp (h : s.Inv) (w : ArpWindow) : (s.setArp w).Inv := { h with }
theorem answerClass (h : s.Inv) (c : EtherClass) : (s.answerClass c).Inv := { h with }
theorem answerWidths (h : s.Inv) (w : AddrWidths) : (s.answerWidths w).Inv := { h with }
theorem setErrDs (h : s.Inv) : s.setErrDs.Inv := { h with }
theorem classified (h : s.Inv) : s.classified.Inv := { h with }

/-! ### Updates of one clause -/

theorem bufWrite (h : s.Inv) {a : Nat} (ha : a < s.config.maxFrameLen.toNat) (b : Byte) :
    (s.bufWrite a b).Inv :=
  { h with buffer := ⟨Memory.write_wf h.buffer.1 a b, Memory.write_bound h.buffer.2 ha b⟩ }

theorem setIp (h : s.Inv) (w : IpWindow) {f : List (Nat × Word)}
    (hf : ArrayWf f ∧ ∀ c ∈ f, c.1 < Config.optionSlots) : (s.setIp w f).Inv :=
  { h with slots := hf }

theorem setWalk (h : s.Inv) {w : OptWalk} (hw : w.e ≤ s.config.maxFrameLen.toNat) :
    (s.setWalk w).Inv :=
  { h with walk := hw }

theorem answer (h : s.Inv) (hreq : s.ds.req = true) {r : BitVec 4} (hr : r.toNat ≤ 3) :
    (s.answer r).Inv :=
  { h with ack := fun _ => hreq, resp := hr }

/-! ### BUSY and DS_REQ along a parse -/

/-- From one code outside IDLE to another, BUSY stays in step with STATE. -/
theorem busy_iff_of_ne_idle (h : s.Inv) (hs : s.state ≠ StateCode.idle) {c : BitVec 4}
    (hc : c ≠ StateCode.idle) : s.status.busy = true ↔ c ≠ StateCode.idle :=
  iff_of_true (h.busyIff.2 hs) hc

/-- From one code outside DS_WAIT to another, DS_REQ stays in step with STATE. -/
theorem req_iff_of_ne_dsWait (h : s.Inv) (hs : s.state ≠ StateCode.dsWait) {c : BitVec 4}
    (hc : c ≠ StateCode.dsWait) : s.ds.req = true ↔ c = StateCode.dsWait :=
  iff_of_false (mt h.request.1 hs) hc

/-! ### Updates of STATE, by the code they lead to; the clauses on other codes are vacuous there -/

/-- The state after reset, for legal parameters (70_reset_and_hazards.md R300). -/
theorem resetWith {c : ConfigReg}
    (hc : Config.minFrameLen ≤ c.maxFrameLen.toNat ∧ 1 ≤ c.vlanMaxDepth.toNat) (d : DsUnit) :
    (State.resetWith c d).Inv :=
  { params := hc
    buffer := ⟨List.Pairwise.nil, nofun⟩
    tags := ⟨⟨List.Pairwise.nil, nofun⟩, nofun⟩
    slots := ⟨⟨List.Pairwise.nil, nofun⟩, nofun⟩
    stateCode := Nat.zero_le _
    busyIff := iff_of_false nofun (· rfl)
    busyDone := nofun
    mode := nofun
    frame := Nat.zero_le _
    cursor := Nat.zero_le _
    vlan := ⟨rfl, Nat.zero_le _⟩
    errCode := Nat.zero_le _
    request := iff_of_false nofun nofun
    ack := nofun
    resp := Nat.zero_le _
    walk := Nat.zero_le _
    atEthAddr := nofun, atTagPeek := nofun, atTagRead := nofun, atEtypeLatch := nofun
    atDispatch := nofun, atDsWait := nofun
    views h := absurd rfl h
    unlatched := nofun }

theorem takeReset (h : s.Inv) : s.takeReset.Inv :=
  { resetWith h.params s.dsUnit with }

/-- The request released and the parse finished, from any code. -/
theorem clearRequest_finish (h : s.Inv) {c : BitVec 4} (hc : c.toNat ≤ 6) :
    (s.clearRequest.finish c).Inv :=
  { h with
    stateCode := Nat.zero_le _
    busyIff := iff_of_false nofun (· rfl)
    busyDone := nofun
    errCode := hc
    request := iff_of_false nofun nofun
    ack := nofun
    atEthAddr := nofun, atTagPeek := nofun, atTagRead := nofun, atEtypeLatch := nofun
    atDispatch := nofun, atDsWait := nofun
    views h := absurd rfl h
    unlatched := nofun }

/-- The parse finished while no request is open. -/
theorem finish (h : s.Inv) (hs : s.state ≠ StateCode.dsWait) {c : BitVec 4} (hc : c.toNat ≤ 6) :
    (s.finish c).Inv :=
  { h.clearRequest_finish hc with
    request := iff_of_false (mt h.request.1 hs) nofun
    ack := h.ack }

theorem raise (h : s.Inv) (hs : s.state ≠ StateCode.dsWait) (e : ErrorKind) : (s.raise e).Inv :=
  h.finish hs (by cases e <;> decide)

theorem beginParse (h : s.Inv) (hs : s.state = StateCode.idle) {m : ParseMode}
    (hm : m ≠ .reserved) (hl : s.frameLen.toNat ≤ s.config.maxFrameLen.toNat) :
    (s.beginParse m).Inv :=
  { h with
    stateCode := by simp [StateCode.ethAddr]
    busyIff := iff_of_true rfl nofun
    busyDone := nofun
    mode := hm
    frame := hl
    cursor := Nat.zero_le _
    vlan := ⟨rfl, Nat.zero_le _⟩
    errCode := Nat.zero_le _
    request := h.req_iff_of_ne_dsWait (hs ▸ nofun) nofun
    atEthAddr _ := ⟨rfl, rfl, rfl⟩
    atTagPeek := nofun, atTagRead := nofun, atEtypeLatch := nofun, atDispatch := nofun
    atDsWait := nofun
    views _ h := absurd rfl h
    unlatched _ := ⟨rfl, rfl⟩ }

theorem latchAddrViews (h : s.Inv) (hs : s.state = StateCode.ethAddr) (hl : 12 ≤ s.lenL.toNat) :
    s.latchAddrViews.Inv := by
  obtain ⟨_, hvlan, _⟩ := h.atEthAddr hs
  exact { h with
    stateCode := by simp [StateCode.tagPeek]
    busyIff := h.busy_iff_of_ne_idle (hs ▸ nofun) nofun
    cursor := hl
    request := h.req_iff_of_ne_dsWait (hs ▸ nofun) nofun
    atEthAddr := nofun
    atTagPeek _ := by simp [hvlan]
    atTagRead := nofun, atEtypeLatch := nofun, atDispatch := nofun, atDsWait := nofun
    views _ _ := rfl
    unlatched _ := h.unlatched (.inl hs) }

/-- TAG_PEEK on the tag code (42_vlan_stack.md R162). -/
theorem goto_tagRead (h : s.Inv) (hs : s.state = StateCode.tagPeek) :
    ((s.setCode 0x8100#16).goto StateCode.tagRead).Inv :=
  { h with
    stateCode := by simp [StateCode.tagRead]
    busyIff := h.busy_iff_of_ne_idle (hs ▸ nofun) nofun
    request := h.req_iff_of_ne_dsWait (hs ▸ nofun) nofun
    atEthAddr := nofun, atTagPeek := nofun
    atTagRead _ := ⟨h.atTagPeek hs, rfl⟩
    atEtypeLatch := nofun, atDispatch := nofun, atDsWait := nofun
    views _ _ := h.views (hs ▸ nofun) (hs ▸ nofun)
    unlatched _ := h.unlatched (.inr (.inl hs)) }

/-- TAG_PEEK on any other code (42_vlan_stack.md R162). -/
theorem goto_etypeLatch (h : s.Inv) (hs : s.state = StateCode.tagPeek) {c : Half}
    (hc : classify c ≠ .vlan) (hl : s.off.toNat + 2 ≤ s.lenL.toNat) :
    ((s.setCode c).goto StateCode.etypeLatch).Inv :=
  { h with
    stateCode := by simp [StateCode.etypeLatch]
    busyIff := h.busy_iff_of_ne_idle (hs ▸ nofun) nofun
    request := h.req_iff_of_ne_dsWait (hs ▸ nofun) nofun
    atEthAddr := nofun, atTagPeek := nofun, atTagRead := nofun
    atEtypeLatch _ := ⟨h.atTagPeek hs, hc, hl⟩
    atDispatch := nofun, atDsWait := nofun
    views _ _ := h.views (hs ▸ nofun) (hs ▸ nofun)
    unlatched _ := h.unlatched (.inr (.inl hs)) }

theorem pushTag (h : s.Inv) (hs : s.state = StateCode.tagRead)
    (hl : s.off.toNat + 4 ≤ s.lenL.toNat) (hc : s.vlanInfo.count ≠ s.config.vlanMaxDepth)
    (v : Half) : (s.pushTag v).Inv := by
  have hoff := (h.atTagRead hs).1
  have hlen := s.lenL.isLt
  have hcount : s.vlanInfo.count.toNat < s.config.vlanMaxDepth.toNat :=
    Nat.lt_of_le_of_ne h.vlan.2 (mt BitVec.eq_of_toNat_eq hc)
  have hoff' : (s.pushTag v).off.toNat = s.off.toNat + 4 := toNat_half (by omega)
  have hcount' : (s.pushTag v).vlanInfo.count.toNat = s.vlanInfo.count.toNat + 1 :=
    toNat_half (by omega)
  have hbytes' : (s.pushTag v).vlanInfo.bytes.toNat = 4 * (s.vlanInfo.count.toNat + 1) :=
    toNat_half (by omega)
  exact { h with
    tags := ⟨arrayWrite_wf h.tags.1 _ v, arrayWrite_bound h.tags.2 hcount v⟩
    stateCode := by simp [StateCode.tagPeek]
    busyIff := h.busy_iff_of_ne_idle (hs ▸ nofun) nofun
    cursor := hoff'.trans_le hl
    vlan := ⟨by omega, hcount'.trans_le hcount⟩
    request := h.req_iff_of_ne_dsWait (hs ▸ nofun) nofun
    atEthAddr := nofun
    atTagPeek _ := by omega
    atTagRead := nofun, atEtypeLatch := nofun, atDispatch := nofun, atDsWait := nofun
    views _ _ := h.views (hs ▸ nofun) (hs ▸ nofun)
    unlatched _ := h.unlatched (.inr (.inr (.inl hs))) }

theorem latchEtherType (h : s.Inv) (hs : s.state = StateCode.etypeLatch) :
    s.latchEtherType.Inv := by
  obtain ⟨hoff, hcode, hl⟩ := h.atEtypeLatch hs
  have hlen := s.lenL.isLt
  have hoff' : (half (s.off.toNat + 2)).toNat = s.off.toNat + 2 := toNat_half (by omega)
  have hlen' : (half (s.lenL.toNat - (s.off.toNat + 2))).toNat =
      s.lenL.toNat - (s.off.toNat + 2) := toNat_half (by omega)
  have hsum : (half (s.off.toNat + 2)).toNat +
      (half (s.lenL.toNat - (s.off.toNat + 2))).toNat = s.lenL.toNat := by omega
  exact { h with
    stateCode := by simp [StateCode.dispatch]
    busyIff := h.busy_iff_of_ne_idle (hs ▸ nofun) nofun
    cursor := hoff'.trans_le hl
    request := h.req_iff_of_ne_dsWait (hs ▸ nofun) nofun
    atEthAddr := nofun, atTagPeek := nofun, atTagRead := nofun, atEtypeLatch := nofun
    atDispatch _ := ⟨rfl, hcode, hoff, hoff', rfl, hsum⟩
    atDsWait := nofun
    views _ _ := h.views (hs ▸ nofun) (hs ▸ nofun)
    unlatched := nofun }

/-- The payload handed off to the unit of its class (45_frame_fsm.md R240). -/
theorem issue (h : s.Inv) (hs : s.state = StateCode.dispatch) {c : DsClass}
    (hc : classify s.code = .arp ∧ c = .arp ∨ classify s.code = .ipv4 ∧ c = .ipv4) :
    (s.issue c).Inv :=
  { h with
    stateCode := by simp [StateCode.dsWait]
    busyIff := h.busy_iff_of_ne_idle (hs ▸ nofun) nofun
    request := iff_of_true rfl rfl
    ack := nofun
    atEthAddr := nofun, atTagPeek := nofun, atTagRead := nofun, atEtypeLatch := nofun
    atDispatch _ := h.atDispatch (.inl hs)
    atDsWait _ := ⟨rfl, rfl, hc⟩
    views _ _ := h.views (hs ▸ nofun) (hs ▸ nofun)
    unlatched := nofun }

end State.Inv

/-! ### The option list fits the slots (44_ipv4_reference.md R216) -/

/-- The walk, begun at `b`, has consumed two bytes or more per listed entry, inside its region. -/
def OptWalk.Within (b : Nat) (w : OptWalk) : Prop :=
  b + 2 * w.opts.length ≤ w.q ∧ w.q ≤ max b w.e

theorem OptWalk.Within.close {b : Nat} {w : OptWalk} (h : w.Within b) : w.close.Within b := by
  unfold OptWalk.close
  split <;> exact h

theorem OptWalk.Within.walkTurn {b : Nat} {w : OptWalk} (h : w.Within b) (rd : Nat → Byte)
    (t : Byte) : (walkTurn rd t w).Within b := by
  cases hw : w.live with
  | false => exact walkTurn_not_live hw ▸ h.close
  | true =>
    obtain ⟨hlen, hend⟩ := h
    rcases walkTurn_cases (rd := rd) (t := t) hw with
      ⟨_, ht⟩ | ⟨_, _, ht⟩ | ⟨_, _, hmin, hmax, ht⟩ <;> rw [ht]
    · exact ⟨hlen, hend⟩
    · exact ⟨hlen, hend⟩
    · refine ⟨?_, hmax.trans (Nat.le_max_right ..)⟩
      simp only [List.length_append, List.length_singleton]
      omega

theorem OptWalk.Within.walkOptions {b : Nat} (rd : Nat → Byte) : ∀ (n : Nat) {w : OptWalk},
    w.Within b → (walkOptions rd n w).Within b
  | 0, _, h => h
  | n + 1, w, h => by
    rw [walkOptions_succ]
    split
    · exact walkOptions rd n (h.walkTurn rd _)
    · exact h.close

/-- The region of a 4-bit header length lists at most twenty entries. -/
theorem length_opts_walkRegion_le (rd : Nat → Byte) (p : Nat) {ihl : Nat} (h15 : ihl ≤ 15) :
    (walkRegion rd p ihl).opts.length ≤ Config.optionSlots := by
  have hstart : OptWalk.Within (p + 20) ⟨p + 20, p + 4 * ihl, [], .walking⟩ :=
    ⟨Nat.le_refl _, Nat.le_max_left ..⟩
  obtain ⟨hlen, hend⟩ := hstart.walkOptions rd (4 * ihl - 20 + 1)
  rw [walkOptions_e] at hend
  dsimp only at hend
  change (Machine.walkOptions rd _ _).opts.length ≤ 20
  omega

/-! ### Operations -/

/-- If the outcome is a next state, it is sound. -/
def StaysSound (r : Result) : Prop := ∀ t : State, r = .next t → t.Inv

theorem staysSound_next {r : Result} {t : State} (hr : r = .next t) (h : t.Inv) :
    StaysSound r := by
  rintro _ ht
  cases hr.symm.trans ht
  exact h

theorem staysSound_fault {r : Result} {f : Fault} (hr : r = .fault f) : StaysSound r :=
  fun _ ht => by cases hr.symm.trans ht

theorem staysSound_refused {r : Result} {f : Refusal} (hr : r = .refused f) : StaysSound r :=
  fun _ ht => by cases hr.symm.trans ht

namespace State.Inv

variable {s : State}

theorem staysSound_execEthAddr (h : s.Inv) (hs : s.state = StateCode.ethAddr) :
    StaysSound (execEthAddr s) := by
  rcases execEthAddr_cases s with ⟨_, he⟩ | ⟨hl, he⟩
  · exact staysSound_next he (h.raise (hs ▸ nofun) _)
  · exact staysSound_next he (h.latchAddrViews hs hl)

theorem staysSound_execTagPeek (h : s.Inv) (hs : s.state = StateCode.tagPeek) :
    StaysSound (execTagPeek s) := by
  rcases execTagPeek_cases s with ⟨_, he⟩ | ⟨_, _, he⟩ | ⟨_, _, _, he⟩ | ⟨hl, _, hc, he⟩
  · exact staysSound_next he (h.raise (hs ▸ nofun) _)
  · exact staysSound_fault he
  · exact staysSound_next he ((h.goto_tagRead hs).answerClass _)
  · exact staysSound_next he ((h.goto_etypeLatch hs (mt classify_eq_vlan.1 hc) hl).answerClass _)

theorem staysSound_execTagRead (h : s.Inv) (hs : s.state = StateCode.tagRead) :
    StaysSound (execTagRead s) := by
  rcases execTagRead_cases s with ⟨_, he⟩ | ⟨_, _, he⟩ | ⟨_, _, _, he⟩ | ⟨hl, hc, _, he⟩
  · exact staysSound_next he (h.raise (hs ▸ nofun) _)
  · exact staysSound_next he (h.raise (hs ▸ nofun) _)
  · exact staysSound_fault he
  · exact staysSound_next he (h.pushTag hs hl hc _)

theorem staysSound_execDispatch (h : s.Inv) (hs : s.state = StateCode.dispatch) :
    StaysSound (execDispatch s) := by
  have hw : s.classified.state ≠ StateCode.dsWait := (hs ▸ nofun : s.state ≠ StateCode.dsWait)
  obtain ⟨_, hv, _⟩ := h.atDispatch (.inl hs)
  rcases execDispatch_cases s hv with ⟨hc, _, _, he⟩ | ⟨hc, _, _, he⟩ | ⟨_, _, he⟩ | ⟨_, _, he⟩ | ⟨_, _, he⟩ | ⟨_, he⟩
  · exact staysSound_next he (h.classified.issue hs (.inl ⟨hc, rfl⟩))
  · exact staysSound_next he (h.classified.issue hs (.inr ⟨hc, rfl⟩))
  · exact staysSound_next he (h.classified.finish hw (Nat.zero_le _))
  · exact staysSound_next he (h.classified.raise hw _)
  · exact staysSound_next he (h.classified.raise hw _)
  · exact staysSound_fault he

theorem staysSound_execDsWait (h : s.Inv) : StaysSound (execDsWait s) := by
  rcases execDsWait_cases s with ⟨_, he⟩ | ⟨_, _, he⟩ | ⟨_, _, he⟩
  · exact staysSound_next he h
  · exact staysSound_next he (h.clearRequest_finish (Nat.zero_le _))
  · exact staysSound_next he (h.setErrDs.clearRequest_finish (h.resp.trans (by decide)))

theorem staysSound_startCommand (h : s.Inv) (m : ParseMode) : StaysSound (startCommand m s) := by
  rcases startCommand_cases m s with ⟨_, he⟩ | ⟨_, _, _, he⟩ | ⟨hs, hm, hl, he⟩
  · exact staysSound_next he (h.setCtrlMode m)
  · exact staysSound_refused he
  · exact staysSound_next he ((h.setCtrlMode m).beginParse hs hm hl)

theorem staysSound_execArpDecode (h : s.Inv) (hreq : s.ds.req = true) :
    StaysSound (execArpDecode s) := by
  rcases execArpDecode_cases s with ⟨_, he⟩ | ⟨_, _, he⟩ | ⟨_, _, _, he⟩ | ⟨_, _, _, he⟩
  · exact staysSound_next he (h.answer hreq (by decide))
  · exact staysSound_fault he
  · exact staysSound_next he ((h.answerWidths (arpWidths _)).answer hreq (by decide))
  · exact staysSound_next he (((h.answerWidths (arpWidths _)).setArp
      (arpWindowOf ..)).answer hreq (by decide))

theorem staysSound_execIpv4Decode (h : s.Inv) (hreq : s.ds.req = true) :
    StaysSound (execIpv4Decode s) := by
  have hwalk (hend : s.ds.base.toNat + 4 * (ipIhl s s.ds.base.toNat).toNat ≤
      s.config.maxFrameLen.toNat) : (s.setWalk s.ipWalk).Inv :=
    h.setWalk ((walkOptions_e ..).trans_le hend)
  rcases execIpv4Decode_cases s with ⟨_, he⟩ | ⟨_, _, he⟩ | ⟨_, _, _, he⟩ |
    ⟨_, hin, _, hihl, _, he⟩ | ⟨_, hin, _, hihl, _, he⟩
  · exact staysSound_next he (h.answer hreq (by decide))
  · exact staysSound_fault he
  · exact staysSound_next he (h.answer hreq (by decide))
  · exact staysSound_next he ((hwalk (by omega)).answer hreq (by decide))
  · have hlen : s.ipWalk.opts.length ≤ Config.optionSlots :=
      length_opts_walkRegion_le _ _ (Nat.le_of_lt_succ (ipIhl s s.ds.base.toNat).isLt)
    have hslots := writeSlots_bound s.ipWalk.opts 0 h.slots.2 (by omega)
    exact staysSound_next he (((hwalk (by omega)).setIp (ipWindowOf ..)
      ⟨writeSlots_wf _ 0 h.slots.1, hslots⟩).answer hreq (by decide))

theorem staysSound_exec_decodeOptType (h : s.Inv) (t : Byte) :
    StaysSound (exec (decodeOptType t) s) := by
  have hturn (t : Byte) : (s.setWalk (walkTurn s.bufByte t s.units.walk)).Inv :=
    h.setWalk ((walkTurn_e ..).trans_le h.walk)
  unfold decodeOptType
  split
  · exact staysSound_next rfl (hturn _)
  · rw [exec_optTlv, execOptTlv]
    split
    · exact staysSound_fault rfl
    · exact staysSound_next rfl (hturn _)

/-! ### Agents -/

theorem staysSound_engineStep (h : s.Inv) : StaysSound (engineStep s) := by
  rcases engineStep_cases s with ⟨_, he⟩ | ⟨hs, he⟩ | ⟨hs, he⟩ | ⟨hs, he⟩ | ⟨hs, he⟩ | ⟨hs, he⟩ |
    ⟨_, he⟩ | ⟨_, he⟩
  · exact staysSound_next he h
  · exact he ▸ h.staysSound_execEthAddr hs
  · exact he ▸ h.staysSound_execTagPeek hs
  · exact he ▸ h.staysSound_execTagRead hs
  · exact staysSound_next he (h.latchEtherType hs)
  · exact he ▸ h.staysSound_execDispatch hs
  · exact he ▸ h.staysSound_execDsWait
  · exact staysSound_fault he

theorem staysSound_downstreamStep (h : s.Inv) : StaysSound (downstreamStep s) := by
  rcases downstreamStep_cases s with ⟨_, he⟩ | ⟨hr, _, he⟩ | ⟨hr, _, he⟩
  · exact staysSound_next he h
  · obtain ⟨_, hreq, _⟩ := referenceEnabled_iff.1 hr
    exact he ▸ h.staysSound_execArpDecode hreq
  · obtain ⟨_, hreq, _⟩ := referenceEnabled_iff.1 hr
    exact he ▸ h.staysSound_execIpv4Decode hreq

theorem writeDrawn (h : s.Inv) (x : ExternalAnswer) : (s.writeDrawn x).Inv := by
  rcases s.writeDrawn_cases x with ⟨_, he⟩ | ⟨_, he⟩ <;> rw [he]
  · exact h.setArp _
  · exact h.setIp _ ⟨externalSlots_wf _ _ h.slots.1,
      externalSlots_bound (IpWindow.slotCount_le _) _ h.slots.2⟩

theorem staysSound_externalStep (h : s.Inv) (x : ExternalAnswer) :
    StaysSound (externalStep x s) := by
  rcases externalStep_cases x s with ⟨_, he⟩ | ⟨⟨_, hreq, _⟩, ⟨_, he⟩ | ⟨hr, _, he⟩ | ⟨_, he⟩⟩
  · exact staysSound_next he h
  · exact staysSound_refused he
  · exact staysSound_next he (h.answer hreq hr)
  · have hreq' : (s.writeDrawn x).ds.req = true := by rw [writeDrawn_frame]; exact hreq
    exact staysSound_next he ((h.writeDrawn x).answer hreq' (Nat.zero_le _))

theorem staysSound_exec_decodeCtrl (h : s.Inv) (v : Word) : StaysSound (exec (decodeCtrl v) s) := by
  rcases exec_decodeCtrl_cases v s with ⟨_, he⟩ | ⟨m, he⟩
  · exact staysSound_next he (h.setCtrlMode _)
  · exact he ▸ h.staysSound_startCommand m

theorem staysSound_hostAccess (h : s.Inv) (a : HostAccess) : StaysSound (hostAccess a s) := by
  intro t ht
  rcases hostAccess_cases ht with ⟨r, rfl⟩ | rfl | ⟨n, rfl⟩ | ⟨v, _, he⟩ | ⟨addr, b, _, ha, _, rfl⟩
  · exact h.setReply r
  · exact h
  · exact h.setFrameLen n
  · exact h.staysSound_exec_decodeCtrl v t he
  · exact h.bufWrite ha b

theorem staysSound_runMove (h : s.Inv) (m : Move) : StaysSound (runMove m s) := by
  cases m with
  | host a => exact h.staysSound_hostAccess a
  | engine => exact h.staysSound_engineStep
  | downstream => exact h.staysSound_downstreamStep
  | external x => exact h.staysSound_externalStep x
  | reset => exact staysSound_next rfl h.takeReset
  | classify c => exact staysSound_next (exec_decodeEtherType c s) (h.answerClass _)
  | selectWidths f => exact staysSound_next (exec_decodeArpProto f s) (h.answerWidths _)
  | optionByte t => exact h.staysSound_exec_decodeOptType t

theorem staysSound_step (h : s.Inv) : StaysSound (step s) := by
  cases hm : s.moves with
  | nil =>
    rw [step_nil hm]
    split
    · exact h.staysSound_engineStep
    · exact h.staysSound_downstreamStep
  | cons m rest => exact step_cons hm ▸ (h.setMoves rest).staysSound_runMove m

end State.Inv

/-- Settles O46: the invariant is inductive, move by move and operation by operation. -/
theorem stepKeepsInvariant : Obligations.StepKeepsInvariant :=
  fun _ t h ht => h.staysSound_step t ht

end Sys2Proof.Machine
end

section
/-! SUPPORT, O18, O34, O35, O36, O37 and O40. The register map read at a register's own
offset, the host's register accesses by what stands at the offset, and the words of CTRL, FRAME_LEN and
STATUS. -/

namespace Sys2Proof.Machine

/-! ### The register map (10_state.md R40) -/

/-- A block with `depth` tag slots has this register: only an array slot can lie outside the map. -/
def Reg.InMap (depth : Nat) (r : Reg) : Prop :=
  (∀ j, r = .ipOpt j → j < Config.optionSlots) ∧ (∀ i, r = .vlanTag i → i < depth)

theorem Reg.offset_mod_four (r : Reg) : r.offset % 4 = 0 := by
  cases r with
  | ipOpt j => simp only [Reg.offset]; omega
  | vlanTag i => simp only [Reg.offset]; omega
  | _ => rfl

/-- Every register of the map is found at its offset; `regAt_offset` is the converse. -/
theorem regAt_offset_self {depth : Nat} {r : Reg} (h : r.InMap depth) :
    regAt depth r.offset = some r := by
  obtain ⟨hopt, htag⟩ := h
  cases r with
  | ipOpt j =>
    have hj : j < 20 := hopt j rfl
    simp (disch := omega) only [regAt, Reg.offset, if_neg, if_pos, Nat.add_sub_cancel_left,
      Nat.mul_div_cancel_left]
  | vlanTag i =>
    have hi : i < depth := htag i rfl
    simp (disch := omega) only [regAt, Reg.offset, if_neg, if_pos, Nat.add_sub_cancel_left,
      Nat.mul_div_cancel_left]
  | _ => rfl

/-- An aligned offset at which no register stands is unmapped (10_state.md R50). -/
theorem regAt_eq_none {depth off : Nat} (h4 : off % 4 = 0)
    (h : ∀ r : Reg, r.InMap depth → r.offset ≠ off) : regAt depth off = none := by
  cases hr : regAt depth off with
  | none => rfl
  | some r =>
    obtain ⟨hoff, hmap⟩ := regAt_offset hr h4
    exact absurd hoff (h r hmap)

/-! ### Register accesses (20_memory.md R72, R73) -/

theorem accessFormOk_word {off : Nat} (h4 : off % 4 = 0) : accessFormOk off .word = true := by
  simp [accessFormOk, h4]

theorem hostAccess_regRead {off : Nat} (h4 : off % 4 = 0) (s : State) :
    hostAccess (.regRead off .word) s = .next (s.setReply (.word (s.readOffset off))) :=
  if_pos (accessFormOk_word h4)

theorem hostAccess_regWrite {off : Nat} (h4 : off % 4 = 0) (v : Word) (s : State) :
    hostAccess (.regWrite off .word v) s = writeOffset off v s :=
  if_pos (accessFormOk_word h4)

/-- A register read changes the reply alone, whatever stands at the offset. -/
theorem hostAccess_regRead_frame {off : Nat} {width : AccessWidth} {s t : State}
    (h : hostAccess (.regRead off width) s = .next t) : t = { s with reply := t.reply } := by
  simp only [hostAccess] at h
  split at h
  · cases h
    rfl
  · cases h

theorem State.readOffset_offset {s : State} {r : Reg}
    (h : r.InMap s.config.vlanMaxDepth.toNat) : s.readOffset r.offset = s.readReg r := by
  rw [State.readOffset, regAt_offset_self h]

theorem State.readOffset_unmapped {s : State} {off : Nat}
    (h : regAt s.config.vlanMaxDepth.toNat off = none) : s.readOffset off = 0#32 := by
  rw [State.readOffset, h]

theorem writeOffset_unmapped {s : State} {off : Nat}
    (h : regAt s.config.vlanMaxDepth.toNat off = none) (v : Word) :
    writeOffset off v s = .next s := by
  rw [writeOffset, h]

theorem writeOffset_readOnly {s : State} {r : Reg} (h : r.InMap s.config.vlanMaxDepth.toNat)
    (hctrl : r ≠ .ctrl) (hlen : r ≠ .frameLen) (v : Word) :
    writeOffset r.offset v s = .next s := by
  rw [writeOffset, regAt_offset_self h]
  cases r with
  | ctrl => exact absurd rfl hctrl
  | frameLen => exact absurd rfl hlen
  | _ => rfl

/-- Settles O34: the map finds each register at its own offset. -/
theorem registerReadReturnsValue : Obligations.RegisterReadReturnsValue := by
  intro s r hopt htag
  rw [hostAccess_regRead r.offset_mod_four, State.readOffset_offset ⟨hopt, htag⟩]
  rfl

/-- Settles O35: at such an offset the map finds no register. -/
theorem unmappedOffsetsReadZero : Obligations.UnmappedOffsetsReadZero := by
  intro s off v h4 h
  have hnone := regAt_eq_none h4 fun r hr => h r hr.1 hr.2
  refine ⟨?_, ?_, fun _ _ _ => hostAccess_regRead_frame⟩
  · rw [hostAccess_regRead h4, State.readOffset_unmapped hnone]
    rfl
  · rw [hostAccess_regWrite h4, writeOffset_unmapped hnone]

/-- Settles O37: CTRL and FRAME_LEN are the only registers of the map a write reaches. -/
theorem readOnlyRegistersIgnoreWrites : Obligations.ReadOnlyRegistersIgnoreWrites := by
  intro s r v hctrl hlen hopt htag
  rw [hostAccess_regWrite r.offset_mod_four, writeOffset_readOnly ⟨hopt, htag⟩ hctrl hlen]

/-! ### FRAME_LEN and STATUS (10_state.md R42, R43) -/

/-- Fields side by side are a sum of their values at their places. -/
theorem toNat_append_eq_add {m n : Nat} (x : BitVec m) (y : BitVec n) :
    (x ++ y).toNat = x.toNat * 2 ^ n + y.toNat := by
  rw [BitVec.toNat_append, ← Nat.shiftLeft_add_eq_or_of_lt y.isLt, Nat.shiftLeft_eq]

/-- The low half of a word, zero-extended, is the word masked. -/
theorem zero_append_low_half (v : Word) : 0#16 ++ v.extractLsb' 0 16 = v &&& 0xFFFF#32 := by
  have hv : v.extractLsb' 16 16 ++ v.extractLsb' 0 16 = v := BitVec.extractLsb'_append_extractLsb'
  calc 0#16 ++ v.extractLsb' 0 16
      = (v.extractLsb' 16 16 &&& 0#16) ++ (v.extractLsb' 0 16 &&& BitVec.allOnes 16) := by
        rw [BitVec.and_zero, BitVec.and_allOnes]
    _ = (v.extractLsb' 16 16 ++ v.extractLsb' 0 16) &&& 0xFFFF#32 := BitVec.and_append.symm
    _ = v &&& 0xFFFF#32 := by rw [hv]

/-- Settles O36: FRAME_LEN stores the low half, and its upper half is hard-wired 0. -/
theorem frameLenWriteReadsBack : Obligations.FrameLenWriteReadsBack := fun s v =>
  ⟨s.setFrameLen (v.extractLsb' 0 16), hostAccess_regWrite rfl v s, rfl, zero_append_low_half v⟩

theorem Status.toNat_word (t : Status) : t.word.toNat =
    (flagBit t.busy).toNat + 2 * (flagBit t.done).toNat + 4 * t.cls.code.toNat +
      16 * t.errCode.toNat + 256 * (flagBit t.errDs).toNat := by
  simp only [Status.word, toNat_append_eq_add, BitVec.toNat_ofNat]
  omega

theorem mul_toNat_flagBit (k : Nat) (b : Bool) : k * (flagBit b).toNat = if b then k else 0 := by
  cases b with
  | false => rfl
  | true => exact Nat.mul_one k

/-- Settles O40: the word is the sum of its fields at their bits, whatever the class. -/
theorem statusWordLayout : Obligations.StatusWordLayout := by
  intro s
  have hbusy := mul_toNat_flagBit 1 s.status.busy
  rw [Nat.one_mul] at hbusy
  rw [State.readReg, Status.toNat_word, hbusy, mul_toNat_flagBit, mul_toNat_flagBit]
  cases s.status.cls <;> rfl

/-! ### CTRL (10_state.md R41, 30_encoding.md R115) -/

theorem ParseMode.code_ofBits (b : BitVec 2) : (ParseMode.ofBits b).code = b := by
  revert b
  decide

/-- Bits 2:1 of a word, at their place, are the word masked. -/
theorem zero_append_mode_bits (v : Word) : 0#29 ++ v.extractLsb' 1 2 ++ 0#1 = v &&& 0x6#32 := by
  have hv : v.extractLsb' 3 29 ++ v.extractLsb' 1 2 ++ v.extractLsb' 0 1 = v := by
    rw [BitVec.extractLsb'_append_extractLsb'_eq_extractLsb' (len₁ := 2) (len₂ := 29) rfl]
    exact BitVec.extractLsb'_append_extractLsb' (w := 31) (len := 1)
  calc 0#29 ++ v.extractLsb' 1 2 ++ 0#1
      = (v.extractLsb' 3 29 &&& 0#29) ++ (v.extractLsb' 1 2 &&& BitVec.allOnes 2) ++
          (v.extractLsb' 0 1 &&& 0#1) := by simp only [BitVec.and_zero, BitVec.and_allOnes]
    _ = (v.extractLsb' 3 29 ++ v.extractLsb' 1 2 ++ v.extractLsb' 0 1) &&& 0x6#32 := by
      rw [← BitVec.and_append, ← BitVec.and_append]; rfl
    _ = v &&& 0x6#32 := by rw [hv]

/-- A CTRL word without START stores its mode; with START it is the START command of its mode. -/
theorem exec_decodeCtrl (v : Word) (s : State) : exec (decodeCtrl v) s =
    if v.extractLsb' 0 1 = 0#1 then .next (s.setCtrlMode (ParseMode.ofBits (v.extractLsb' 1 2)))
    else startCommand (ParseMode.ofBits (v.extractLsb' 1 2)) s := by
  unfold decodeCtrl
  split
  · rfl
  · rename_i hstart
    have hlow : v.extractLsb' 0 3 = v.extractLsb' 1 2 ++ 1#1 := by
      rw [← BitVec.extractLsb'_append_extractLsb'_eq_extractLsb' (len₁ := 1) (len₂ := 2) rfl,
        (BitVec.eq_zero_or_eq_one _).resolve_left hstart]
    rw [hlow]
    generalize v.extractLsb' 1 2 = b
    have hb : b = 0#2 ∨ b = 1#2 ∨ b = 2#2 ∨ b = 3#2 := by
      revert b
      decide
    rcases hb with rfl | rfl | rfl | rfl <;> rfl

/-- What a CTRL write leaves behind: MODE updated, and a parse begun only by a START in IDLE. -/
theorem exec_decodeCtrl_next {v : Word} {s t : State} (h : exec (decodeCtrl v) s = .next t) :
    t = s.setCtrlMode (ParseMode.ofBits (v.extractLsb' 1 2)) ∨
    s.state = StateCode.idle ∧ v.extractLsb' 0 1 ≠ 0#1 ∧
      t = (s.setCtrlMode (ParseMode.ofBits (v.extractLsb' 1 2))).beginParse
        (ParseMode.ofBits (v.extractLsb' 1 2)) := by
  rw [exec_decodeCtrl] at h
  split at h
  · cases h
    exact .inl rfl
  · rename_i hstart
    rcases startCommand_cases (ParseMode.ofBits (v.extractLsb' 1 2)) s with
      ⟨_, he⟩ | ⟨_, _, _, he⟩ | ⟨hs, _, _, he⟩ <;> cases he.symm.trans h
    · exact .inl rfl
    · exact .inr ⟨hs, hstart, rfl⟩

/-- Settles O18: the write runs its word as a command, which begins a parse only with START set and
in IDLE. -/
theorem ctrlWriteAlwaysUpdatesMode : Obligations.CtrlWriteAlwaysUpdatesMode := by
  intro s t v rest hm hstep
  rw [step_cons hm] at hstep
  have hctrl : t.ctrlMode = ParseMode.ofBits (v.extractLsb' 1 2) →
      t.readReg .ctrl = v &&& 0x6#32 := by
    intro hmode
    rw [State.readReg, hmode, ParseMode.code_ofBits, zero_append_mode_bits]
  rcases exec_decodeCtrl_next (s := s.setMoves rest) hstep with rfl | ⟨hs, hstart, rfl⟩
  · exact ⟨hctrl rfl, rfl, fun _ => rfl, fun _ => rfl⟩
  · exact ⟨hctrl rfl, rfl, fun hs' => absurd hs hs', fun hv => absurd hv hstart⟩

end Sys2Proof.Machine
end

section
/-! SUPPORT and O43. STATUS across an instruction, and the instruction that a step which changes
STATUS was given to run. -/

namespace Sys2Proof

/-- The instructions that can change STATUS (10_state.md R51). -/
def Instr.WritesStatus (i : Instr) : Prop :=
  i = .startAuto ∨ i = .startExpectArp ∨ i = .startExpectIpv4 ∨ i = .ethAddr ∨
    i = .tagPeek ∨ i = .tagRead ∨ i = .dispatch ∨ i = .dsWait

namespace Machine

/-! ### STATUS across an operation -/

theorem execArpDecode_status {s t : State} (h : execArpDecode s = .next t) :
    t.status = s.status := by
  rcases execArpDecode_cases s with ⟨_, he⟩ | ⟨_, _, he⟩ | ⟨_, _, _, he⟩ | ⟨_, _, _, he⟩ <;>
    cases he.symm.trans h <;> rfl

theorem execIpv4Decode_status {s t : State} (h : execIpv4Decode s = .next t) :
    t.status = s.status := by
  rcases execIpv4Decode_cases s with ⟨_, he⟩ | ⟨_, _, he⟩ | ⟨_, _, _, he⟩ | ⟨_, _, _, _, _, he⟩ |
    ⟨_, _, _, _, _, he⟩ <;> cases he.symm.trans h <;> rfl

theorem execOptTlv_status {copy : BitVec 1} {cls : BitVec 2} {number : BitVec 5} {s t : State}
    (h : execOptTlv copy cls number s = .next t) : t.status = s.status := by
  unfold execOptTlv at h
  split at h <;> cases h
  rfl

theorem externalStep_status {x : ExternalAnswer} {s t : State} (h : externalStep x s = .next t) :
    t.status = s.status := by
  rcases externalStep_cases x s with ⟨_, he⟩ | ⟨_, ⟨_, he⟩ | ⟨_, _, he⟩ | ⟨_, he⟩⟩ <;>
    cases he.symm.trans h
  · rfl
  · rfl
  · rw [State.answer_status, State.writeDrawn_frame]

/-- The reserved mode never starts a parse (45_frame_fsm.md R231). -/
theorem exec_startReserved_eq_next (s : State) :
    exec .startReserved s = .next (s.setCtrlMode .reserved) :=
  if_pos (.inr rfl)

/-- Every other instruction leaves STATUS. -/
theorem writesStatus_of_exec {i : Instr} {s t : State} (h : exec i s = .next t)
    (hne : t.status ≠ s.status) : i.WritesStatus := by
  cases i with
  | startAuto | startExpectArp | startExpectIpv4 | ethAddr | tagPeek | tagRead | dispatch
  | dsWait =>
    simp [Instr.WritesStatus]
  | startReserved =>
    cases (exec_startReserved_eq_next s).symm.trans h
    exact absurd rfl hne
  | arpDecode => exact absurd (execArpDecode_status h) hne
  | ipv4Decode => exact absurd (execIpv4Decode_status h) hne
  | optTlv => exact absurd (execOptTlv_status h) hne
  | _ =>
    cases h
    exact absurd rfl hne

/-! ### What an agent's step runs -/

theorem exec_of_engineStep {s t : State} (h : engineStep s = .next t) :
    ∃ i, (decodeState s.state).instr? = some i ∧ exec i s = .next t := by
  unfold engineStep at h
  cases hd : decodeState s.state with
  | ok i => exact ⟨i, rfl, by rwa [hd] at h⟩
  | reject r =>
    rw [hd] at h
    cases h

theorem exec_of_downstreamStep {s t : State} (h : downstreamStep s = .next t) :
    s.referenceEnabled = false ∧ t = s ∨
    s.referenceEnabled = true ∧ exec (decodeDsClass s.ds.cls.bit) s = .next t := by
  unfold downstreamStep at h
  cases hr : s.referenceEnabled with
  | false =>
    rw [hr] at h
    cases h
    exact .inl ⟨rfl, rfl⟩
  | true => exact .inr ⟨rfl, by rwa [hr] at h⟩

/-- A host access that changes STATUS is a command word (30_encoding.md R115). -/
theorem exec_of_hostAccess {a : HostAccess} {s t : State} (h : hostAccess a s = .next t)
    (hne : t.status ≠ s.status) : ∃ i, a.instr? = some i ∧ exec i s = .next t := by
  rcases hostAccess_cases h with ⟨_, rfl⟩ | rfl | ⟨_, rfl⟩ | ⟨v, rfl, he⟩ | ⟨_, _, _, _, _, rfl⟩
  · exact absurd rfl hne
  · exact absurd rfl hne
  · exact absurd rfl hne
  · exact ⟨decodeCtrl v, rfl, he⟩
  · exact absurd rfl hne

/-- A move that changes STATUS is reset or runs the instruction fetched. -/
theorem exec_of_runMove {m : Move} {s t : State} (h : runMove m s = .next t)
    (hne : t.status ≠ s.status) (rest : List Move) :
    m = .reset ∨ ∃ i, (s.setMoves (m :: rest)).fetched? = some i ∧ exec i s = .next t := by
  cases m with
  | host a => exact .inr (exec_of_hostAccess h hne)
  | engine => exact .inr (exec_of_engineStep h)
  | downstream =>
    rcases exec_of_downstreamStep h with ⟨_, rfl⟩ | ⟨hr, he⟩
    · exact absurd rfl hne
    · exact .inr ⟨_, if_pos hr, he⟩
  | external x => exact absurd (externalStep_status h) hne
  | reset => exact .inl rfl
  | classify c => exact .inr ⟨_, rfl, h⟩
  | selectWidths f => exact .inr ⟨_, rfl, h⟩
  | optionByte t => exact .inr ⟨_, rfl, h⟩

/-- Settles O43: a step that changes STATUS runs an instruction, and that one writes STATUS. -/
theorem statusWriters : Obligations.StatusWriters := by
  intro s t h hne
  cases hm : s.moves with
  | nil =>
    rw [step_nil hm] at h
    cases he : s.engineEnabled with
    | true =>
      rw [he] at h
      obtain ⟨i, hi, hexec⟩ := exec_of_engineStep h
      exact .inr ⟨i, by simp [State.fetched?, hm, he, hi], writesStatus_of_exec hexec hne⟩
    | false =>
      rw [he] at h
      rcases exec_of_downstreamStep h with ⟨_, rfl⟩ | ⟨hr, hexec⟩
      · exact absurd rfl hne
      · exact .inr ⟨_, by simp [State.fetched?, hm, he, hr], writesStatus_of_exec hexec hne⟩
  | cons m rest =>
    rw [step_cons hm] at h
    rcases exec_of_runMove h hne rest with rfl | ⟨i, hi, hexec⟩
    · exact .inl ⟨rest, rfl⟩
    · refine .inr ⟨i, ?_, writesStatus_of_exec hexec hne⟩
      rw [← hi, ← hm]
      rfl

end Machine
end Sys2Proof
end

section
/-! SUPPORT, O38 and O39. The host's two ports: the accesses that are refused (20_memory.md R73, R76,
R86), and the frame buffer as the host stores and loads it. -/

namespace Sys2Proof.Machine

/-! ### Registers -/

theorem accessFormOk_eq_false {off : Nat} {width : AccessWidth}
    (h : width ≠ .word ∨ off % 4 ≠ 0) : accessFormOk off width = false := by
  simpa [accessFormOk, ← imp_iff_not_or] using h

/-- Settles O38: both register accesses check the form before anything else. -/
theorem oddRegisterAccessIsRefused : Obligations.OddRegisterAccessIsRefused := by
  intro s off width v h
  have hform := accessFormOk_eq_false h
  constructor
  · rw [hostAccess, hform]
    rfl
  · rw [hostAccess, hform]
    rfl

/-! ### Frame-buffer bytes -/

variable {s : State} {a : Nat}

theorem hostAccess_bufWrite (ha : a < s.config.maxFrameLen.toNat) (hb : s.status.busy = false)
    (v : Byte) : hostAccess (.bufWrite a v) s = .next (s.bufWrite a v) := by
  rw [hostAccess, if_pos ha, hb]
  rfl

theorem hostAccess_bufWrite_busy (ha : a < s.config.maxFrameLen.toNat) (hb : s.status.busy = true)
    (v : Byte) : hostAccess (.bufWrite a v) s = .refused .bufferBusy := by
  rw [hostAccess, if_pos ha, if_pos hb]

theorem hostAccess_bufWrite_range (ha : s.config.maxFrameLen.toNat ≤ a) (v : Byte) :
    hostAccess (.bufWrite a v) s = .refused .bufferRange :=
  if_neg (Nat.not_lt_of_le ha)

theorem hostAccess_bufRead (ha : a < s.config.maxFrameLen.toNat) :
    hostAccess (.bufRead a) s = .next (s.setReply (.byte (s.bufByte a))) :=
  if_pos ha

theorem hostAccess_bufRead_range (ha : s.config.maxFrameLen.toNat ≤ a) :
    hostAccess (.bufRead a) s = .refused .bufferRange :=
  if_neg (Nat.not_lt_of_le ha)

/-- Settles O39: the range is checked before BUSY, and a store is read back as `Memory.write` says. -/
theorem frameBufferPort : Obligations.FrameBufferPort := fun s a v =>
  ⟨fun ha hb => ⟨s.bufWrite a v, hostAccess_bufWrite ha hb v, rfl, s.bufByte_bufWrite_same a v,
      fun _ hne => s.bufByte_bufWrite_other v hne⟩,
    hostAccess_bufRead,
    fun ha hb => hostAccess_bufWrite_busy ha hb v,
    fun ha => ⟨hostAccess_bufWrite_range ha v, hostAccess_bufRead_range ha⟩⟩

end Sys2Proof.Machine
end

section
/-! SUPPORT, O30, O31 and O42. The frame of each operation, as an equation that names the only fields it
writes; and the frame buffer across every step. -/

namespace Sys2Proof.Machine

variable {s t : State}

/-! ### The engine's operations -/

theorem execEthAddr_frame (h : execEthAddr s = .next t) :
    t = { s with state := t.state, status := t.status, off := t.off, addrViews := t.addrViews } := by
  rcases execEthAddr_cases s with ⟨_, he⟩ | ⟨_, he⟩ <;> cases he.symm.trans h <;> rfl

theorem execTagPeek_frame (h : execTagPeek s = .next t) :
    t = { s with state := t.state, status := t.status, code := t.code, units := t.units } := by
  rcases execTagPeek_cases s with ⟨_, he⟩ | ⟨_, _, he⟩ | ⟨_, _, _, he⟩ | ⟨_, _, _, he⟩ <;>
    cases he.symm.trans h <;> rfl

theorem execTagRead_frame (h : execTagRead s = .next t) :
    t = { s with
      state := t.state, status := t.status, off := t.off
      vlanTag := t.vlanTag, vlanInfo := t.vlanInfo } := by
  rcases execTagRead_cases s with ⟨_, he⟩ | ⟨_, _, he⟩ | ⟨_, _, _, he⟩ | ⟨_, _, _, he⟩ <;>
    cases he.symm.trans h <;> rfl

theorem latchEtherType_frame (s : State) : s.latchEtherType = { s with
    state := s.latchEtherType.state, off := s.latchEtherType.off
    etherType := s.latchEtherType.etherType, payload := s.latchEtherType.payload } := rfl

/-- DISPATCH hands off or finishes, whatever the code, a tag code included. -/
theorem execDispatch_next (h : execDispatch s = .next t) :
    (∃ c : DsClass, t = s.classified.issue c) ∨ ∃ e : BitVec 4, t = s.classified.finish e := by
  unfold execDispatch at h
  dsimp only at h
  split at h
  · split at h <;> cases h
    · exact .inr ⟨_, rfl⟩
    · exact .inl ⟨_, rfl⟩
  · split at h <;> cases h
    · exact .inl ⟨_, rfl⟩
    · exact .inr ⟨_, rfl⟩
  · split at h <;> cases h
    · exact .inl ⟨_, rfl⟩
    · exact .inr ⟨_, rfl⟩
  · cases h

theorem execDispatch_frame (h : execDispatch s = .next t) :
    t = { s with
      state := t.state, status := t.status, units := t.units
      ds := { t.ds with resp := s.ds.resp } } := by
  rcases execDispatch_next h with ⟨_, rfl⟩ | ⟨_, rfl⟩ <;> rfl

theorem execDsWait_frame (h : execDsWait s = .next t) :
    t = { s with
      state := t.state, status := t.status
      ds := { s.ds with req := t.ds.req, ack := t.ds.ack } } := by
  rcases execDsWait_cases s with ⟨_, he⟩ | ⟨_, _, he⟩ | ⟨_, _, he⟩ <;>
    cases he.symm.trans h <;> rfl

/-- Settles O30: each operation writes no more than its own frame equation lists. -/
theorem engineFrame : Obligations.EngineFrame := by
  intro i s t hi h
  cases i with
  | idle => cases h; simp
  | ethAddr => rw [execEthAddr_frame h]; simp [State.bufByte]
  | tagPeek => rw [execTagPeek_frame h]; simp [State.bufByte]
  | tagRead => rw [execTagRead_frame h]; simp [State.bufByte]
  | etypeLatch => cases h; rw [latchEtherType_frame]; simp [State.bufByte]
  | dispatch => rw [execDispatch_frame h]; simp [State.bufByte]
  | dsWait => rw [execDsWait_frame h]; simp [State.bufByte]
  | _ => cases hi

/-! ### The reference units -/

/-- `t` is `s` after a downstream error: the answer, 1 to 3, and the model's own variables. -/
def State.ErrorAnswer (s t : State) : Prop :=
  ∃ (u : Units) (r : BitVec 4), r.toNat ≤ 3 ∧ t = { s with units := u }.answer r

/-- ARP_DECODE answers an error, or OK with its window. -/
theorem execArpDecode_next (h : execArpDecode s = .next t) :
    s.ErrorAnswer t ∨
    ∃ (u : Units) (w : ArpWindow), t = ({ s with units := u }.setArp w).answer okCode := by
  rcases execArpDecode_cases s with ⟨_, he⟩ | ⟨_, _, he⟩ | ⟨_, _, _, he⟩ | ⟨_, _, _, he⟩ <;>
    cases he.symm.trans h
  · exact .inl ⟨_, _, by decide, rfl⟩
  · exact .inl ⟨_, _, by decide, rfl⟩
  · exact .inr ⟨_, _, rfl⟩

/-- IPV4_DECODE answers an error, or OK with its window and slots. -/
theorem execIpv4Decode_next (h : execIpv4Decode s = .next t) :
    s.ErrorAnswer t ∨
    ∃ (u : Units) (w : IpWindow) (f : List (Nat × Word)),
      t = ({ s with units := u }.setIp w f).answer okCode := by
  rcases execIpv4Decode_cases s with ⟨_, he⟩ | ⟨_, _, he⟩ | ⟨_, _, _, he⟩ | ⟨_, _, _, _, _, he⟩ |
    ⟨_, _, _, _, _, he⟩ <;> cases he.symm.trans h
  · exact .inl ⟨_, _, by decide, rfl⟩
  · exact .inl ⟨_, _, by decide, rfl⟩
  · exact .inl ⟨_, _, by decide, rfl⟩
  · exact .inr ⟨_, _, _, rfl⟩

/-- Settles O31: the answer is an error, which writes no window, or OK, which writes the unit's own. -/
theorem downstreamFrame : Obligations.DownstreamFrame := by
  rintro i s t (rfl | rfl) h
  · rcases execArpDecode_next h with ⟨_, _, hr, rfl⟩ | ⟨_, _, rfl⟩
    · exact ⟨rfl, fun _ => ⟨rfl, rfl⟩, nofun, hr, fun _ => ⟨rfl, rfl, rfl⟩, fun _ => rfl⟩
    · exact ⟨rfl, fun _ => ⟨rfl, rfl⟩, nofun, Nat.zero_le _, fun hr => absurd rfl hr, fun _ => rfl⟩
  · rcases execIpv4Decode_next h with ⟨_, _, hr, rfl⟩ | ⟨_, _, _, rfl⟩
    · exact ⟨rfl, nofun, fun _ => rfl, hr, fun _ => ⟨rfl, rfl, rfl⟩, fun _ => rfl⟩
    · exact ⟨rfl, nofun, fun _ => rfl, Nat.zero_le _, fun hr => absurd rfl hr, fun _ => rfl⟩

/-! ### The frame buffer -/

/-- `t` lists the same bytes as `s` and draws the unlisted ones from the same epoch. -/
def State.SameBuffer (s t : State) : Prop := t.frameBuf = s.frameBuf ∧ t.bufEpoch = s.bufEpoch

theorem State.SameBuffer.bufByte (h : s.SameBuffer t) (a : Nat) : t.bufByte a = s.bufByte a := by
  obtain ⟨hbuf, hepoch⟩ := h
  rw [State.bufByte, hbuf, hepoch]
  rfl

theorem sameBuffer_of_startCommand {m : ParseMode} (h : startCommand m s = .next t) :
    s.SameBuffer t := by
  rcases startCommand_cases m s with ⟨_, he⟩ | ⟨_, _, _, he⟩ | ⟨_, _, _, he⟩ <;>
    cases he.symm.trans h <;> exact ⟨rfl, rfl⟩

theorem sameBuffer_of_execOptTlv {copy : BitVec 1} {cls : BitVec 2} {number : BitVec 5}
    (h : execOptTlv copy cls number s = .next t) : s.SameBuffer t := by
  unfold execOptTlv at h
  split at h <;> cases h
  exact ⟨rfl, rfl⟩

theorem sameBuffer_of_externalStep {x : ExternalAnswer} (h : externalStep x s = .next t) :
    s.SameBuffer t := by
  rcases externalStep_cases x s with ⟨_, he⟩ | ⟨_, ⟨_, he⟩ | ⟨_, _, he⟩ | ⟨_, he⟩⟩ <;>
    cases he.symm.trans h
  · exact ⟨rfl, rfl⟩
  · exact ⟨rfl, rfl⟩
  · rw [State.writeDrawn_frame]
    exact ⟨rfl, rfl⟩

/-- No instruction writes the frame buffer: only the host's port and reset do (20_memory.md R74). -/
theorem sameBuffer_of_exec {i : Instr} (h : exec i s = .next t) : s.SameBuffer t := by
  cases i with
  | ethAddr => rw [execEthAddr_frame h]; exact ⟨rfl, rfl⟩
  | tagPeek => rw [execTagPeek_frame h]; exact ⟨rfl, rfl⟩
  | tagRead => rw [execTagRead_frame h]; exact ⟨rfl, rfl⟩
  | dispatch => rw [execDispatch_frame h]; exact ⟨rfl, rfl⟩
  | dsWait => rw [execDsWait_frame h]; exact ⟨rfl, rfl⟩
  | startAuto | startExpectArp | startExpectIpv4 | startReserved =>
    exact sameBuffer_of_startCommand h
  | arpDecode => rcases execArpDecode_next h with ⟨_, _, _, rfl⟩ | ⟨_, _, rfl⟩ <;> exact ⟨rfl, rfl⟩
  | ipv4Decode =>
    rcases execIpv4Decode_next h with ⟨_, _, _, rfl⟩ | ⟨_, _, _, rfl⟩ <;> exact ⟨rfl, rfl⟩
  | optTlv => exact sameBuffer_of_execOptTlv h
  | _ =>
    cases h
    exact ⟨rfl, rfl⟩

theorem sameBuffer_of_engineStep (h : engineStep s = .next t) : s.SameBuffer t := by
  obtain ⟨_, _, he⟩ := exec_of_engineStep h
  exact sameBuffer_of_exec he

theorem sameBuffer_of_downstreamStep (h : downstreamStep s = .next t) : s.SameBuffer t := by
  rcases exec_of_downstreamStep h with ⟨_, rfl⟩ | ⟨_, he⟩
  · exact ⟨rfl, rfl⟩
  · exact sameBuffer_of_exec he

theorem sameBuffer_of_hostAccess {a : HostAccess} (ha : ∀ addr v, a ≠ .bufWrite addr v)
    (h : hostAccess a s = .next t) : s.SameBuffer t := by
  rcases hostAccess_cases h with ⟨_, rfl⟩ | rfl | ⟨_, rfl⟩ | ⟨_, _, he⟩ | ⟨addr, v, heq, _, _, _⟩
  · exact ⟨rfl, rfl⟩
  · exact ⟨rfl, rfl⟩
  · exact ⟨rfl, rfl⟩
  · exact sameBuffer_of_exec he
  · exact absurd heq (ha addr v)

theorem sameBuffer_of_runMove {m : Move} (hhost : ∀ a v, m ≠ .host (.bufWrite a v))
    (hreset : m ≠ .reset) (h : runMove m s = .next t) : s.SameBuffer t := by
  cases m with
  | host a => exact sameBuffer_of_hostAccess (fun addr v ha => hhost addr v (congrArg _ ha)) h
  | engine => exact sameBuffer_of_engineStep h
  | downstream => exact sameBuffer_of_downstreamStep h
  | external x => exact sameBuffer_of_externalStep h
  | reset => exact absurd rfl hreset
  | classify c => exact sameBuffer_of_exec h
  | selectWidths f => exact sameBuffer_of_exec h
  | optionByte b => exact sameBuffer_of_exec h

theorem sameBuffer_of_step (h : step s = .next t)
    (hhost : ∀ a v rest, s.moves ≠ .host (.bufWrite a v) :: rest)
    (hreset : ∀ rest, s.moves ≠ .reset :: rest) : s.SameBuffer t := by
  cases hm : s.moves with
  | nil =>
    rw [step_nil hm] at h
    split at h
    · exact sameBuffer_of_engineStep h
    · exact sameBuffer_of_downstreamStep h
  | cons m rest =>
    rw [step_cons hm] at h
    exact sameBuffer_of_runMove (s := s.setMoves rest)
      (fun a v he => hhost a v rest (he ▸ hm)) (fun he => hreset rest (he ▸ hm)) h

/-- Settles O42: no instruction and no other agent's step writes the buffer. -/
theorem bufferChangesOnlyByHostOrReset : Obligations.BufferChangesOnlyByHostOrReset := by
  intro s t h hhost hreset
  have hsame := sameBuffer_of_step h hhost hreset
  exact ⟨hsame.1, hsame.bufByte⟩

end Sys2Proof.Machine
end

section
/-! SUPPORT and O47. From a sound state every operation of the block answers a next state: the reads
lie in the buffer and no reserved code is decoded. What is refused is the host's or an EXTERNAL unit's. -/

namespace Sys2Proof.Machine

/-- The outcome is a next state. -/
def Answers (r : Result) : Prop := ∃ t : State, r = .next t

namespace State.Inv

variable {s : State}

/-! ### The engine -/

theorem answers_execTagPeek (h : s.Inv) : Answers (execTagPeek s) := by
  have hframe := h.frame
  rcases execTagPeek_cases s with ⟨_, he⟩ | ⟨_, _, _⟩ | ⟨_, _, _, he⟩ | ⟨_, _, _, he⟩
  · exact ⟨_, he⟩
  · omega
  · exact ⟨_, he⟩
  · exact ⟨_, he⟩

theorem answers_execTagRead (h : s.Inv) : Answers (execTagRead s) := by
  have hframe := h.frame
  rcases execTagRead_cases s with ⟨_, he⟩ | ⟨_, _, he⟩ | ⟨_, _, _, _⟩ | ⟨_, _, _, he⟩
  · exact ⟨_, he⟩
  · exact ⟨_, he⟩
  · omega
  · exact ⟨_, he⟩

theorem answers_execDispatch (h : s.Inv) (hs : s.state = StateCode.dispatch) :
    Answers (execDispatch s) := by
  obtain ⟨_, hv, _⟩ := h.atDispatch (.inl hs)
  rcases execDispatch_cases s hv with ⟨_, _, _, he⟩ | ⟨_, _, _, he⟩ | ⟨_, _, he⟩ | ⟨_, _, he⟩ |
    ⟨_, _, he⟩ | ⟨hm, _⟩
  · exact ⟨_, he⟩
  · exact ⟨_, he⟩
  · exact ⟨_, he⟩
  · exact ⟨_, he⟩
  · exact ⟨_, he⟩
  · exact absurd hm h.mode

theorem answers_engineStep (h : s.Inv) : Answers (engineStep s) := by
  rcases engineStep_cases s with ⟨_, he⟩ | ⟨_, he⟩ | ⟨_, he⟩ | ⟨_, he⟩ | ⟨_, he⟩ | ⟨hs, he⟩ |
    ⟨_, he⟩ | ⟨hs, _⟩
  · exact ⟨_, he⟩
  · rcases execEthAddr_cases s with ⟨_, h'⟩ | ⟨_, h'⟩ <;> exact ⟨_, he.trans h'⟩
  · exact he ▸ h.answers_execTagPeek
  · exact he ▸ h.answers_execTagRead
  · exact ⟨_, he⟩
  · exact he ▸ h.answers_execDispatch hs
  · rcases execDsWait_cases s with ⟨_, h'⟩ | ⟨_, _, h'⟩ | ⟨_, _, h'⟩ <;> exact ⟨_, he.trans h'⟩
  · exact absurd h.stateCode (Nat.not_le_of_lt hs)

/-! ### The reference units and the option walk -/

/-- An open request names a payload inside the frame, so inside the buffer. -/
theorem payload_le_maxFrameLen (h : s.Inv) (hreq : s.ds.req = true) :
    s.ds.base.toNat + s.ds.len.toNat ≤ s.config.maxFrameLen.toNat := by
  have hs := h.request.1 hreq
  obtain ⟨hbase, hlen, _⟩ := h.atDsWait hs
  obtain ⟨_, _, _, _, _, hsum⟩ := h.atDispatch (.inr hs)
  rw [hbase, hlen, hsum]
  exact h.frame

theorem answers_execArpDecode (h : s.Inv) (hreq : s.ds.req = true) :
    Answers (execArpDecode s) := by
  have hin := h.payload_le_maxFrameLen hreq
  rcases execArpDecode_cases s with ⟨_, he⟩ | ⟨_, _, _⟩ | ⟨_, _, _, he⟩ | ⟨_, _, _, he⟩
  · exact ⟨_, he⟩
  · omega
  · exact ⟨_, he⟩
  · exact ⟨_, he⟩

theorem answers_execIpv4Decode (h : s.Inv) (hreq : s.ds.req = true) :
    Answers (execIpv4Decode s) := by
  have hin := h.payload_le_maxFrameLen hreq
  rcases execIpv4Decode_cases s with ⟨_, he⟩ | ⟨_, _, _⟩ | ⟨_, _, _, he⟩ | ⟨_, _, _, _, _, he⟩ |
    ⟨_, _, _, _, _, he⟩
  · exact ⟨_, he⟩
  · omega
  · exact ⟨_, he⟩
  · exact ⟨_, he⟩
  · exact ⟨_, he⟩

theorem answers_downstreamStep (h : s.Inv) : Answers (downstreamStep s) := by
  rcases downstreamStep_cases s with ⟨_, he⟩ | ⟨hr, _, he⟩ | ⟨hr, _, he⟩
  · exact ⟨_, he⟩
  · obtain ⟨_, hreq, _⟩ := referenceEnabled_iff.1 hr
    exact he ▸ h.answers_execArpDecode hreq
  · obtain ⟨_, hreq, _⟩ := referenceEnabled_iff.1 hr
    exact he ▸ h.answers_execIpv4Decode hreq

theorem answers_exec_decodeOptType (h : s.Inv) (t : Byte) :
    Answers (exec (decodeOptType t) s) := by
  unfold decodeOptType
  split
  · exact ⟨_, rfl⟩
  · exact ⟨_, if_neg (Nat.not_lt_of_le h.walk)⟩

end State.Inv

/-! ### The outside world -/

variable {s : State}

/-- No host access is a fault, from any state. -/
theorem hostAccess_ne_fault (a : HostAccess) (s : State) (f : Fault) :
    hostAccess a s ≠ .fault f := by
  have hctrl (v : Word) : exec (decodeCtrl v) s ≠ .fault f := by
    rcases exec_decodeCtrl_cases v s with ⟨_, he⟩ | ⟨m, he⟩
    · exact he ▸ nofun
    · rcases startCommand_cases m s with ⟨_, h'⟩ | ⟨_, _, _, h'⟩ | ⟨_, _, _, h'⟩ <;>
        exact he.trans h' ▸ nofun
  cases a with
  | regRead off width =>
    simp only [hostAccess]
    split <;> nofun
  | regWrite off width v =>
    simp only [hostAccess, writeOffset]
    split
    · split
      · exact hctrl v
      · nofun
      · nofun
    · nofun
  | bufRead addr =>
    simp only [hostAccess]
    split <;> nofun
  | bufWrite addr b =>
    simp only [hostAccess]
    split
    · split <;> nofun
    · nofun

theorem externalStep_ne_fault (x : ExternalAnswer) (s : State) (f : Fault) :
    externalStep x s ≠ .fault f := by
  rcases externalStep_cases x s with ⟨_, he⟩ | ⟨_, ⟨_, he⟩ | ⟨_, _, he⟩ | ⟨_, he⟩⟩ <;>
    exact he ▸ nofun

/-- R247 refuses the answers above 3 alone. -/
theorem resp_gt_of_externalStep_refused {x : ExternalAnswer} {r : Refusal}
    (h : externalStep x s = .refused r) : 3 < x.resp.toNat := by
  rcases externalStep_cases x s with ⟨_, he⟩ | ⟨_, ⟨hr, _⟩ | ⟨_, _, he⟩ | ⟨_, he⟩⟩
  · cases he.symm.trans h
  · exact hr
  · cases he.symm.trans h
  · cases he.symm.trans h

/-! ### One step -/

/-- From a sound state every move but the host's and an EXTERNAL unit's answers a next state. -/
theorem State.Inv.runMove_cases (h : s.Inv) (m : Move) :
    (∃ a, m = .host a) ∨ (∃ x, m = .external x) ∨ Answers (runMove m s) := by
  cases m with
  | host a => exact .inl ⟨a, rfl⟩
  | external x => exact .inr (.inl ⟨x, rfl⟩)
  | engine => exact .inr (.inr h.answers_engineStep)
  | downstream => exact .inr (.inr h.answers_downstreamStep)
  | reset => exact .inr (.inr ⟨_, rfl⟩)
  | classify c => exact .inr (.inr ⟨_, exec_decodeEtherType c s⟩)
  | selectWidths f => exact .inr (.inr ⟨_, exec_decodeArpProto f s⟩)
  | optionByte t => exact .inr (.inr (h.answers_exec_decodeOptType t))

/-- A step of a sound state is a host access, an EXTERNAL unit's step, or answers a next state. -/
theorem State.Inv.step_cases (h : s.Inv) :
    (∃ a rest, s.moves = .host a :: rest ∧ step s = hostAccess a (s.setMoves rest)) ∨
    (∃ x rest, s.moves = .external x :: rest ∧ step s = externalStep x (s.setMoves rest)) ∨
    Answers (step s) := by
  cases hm : s.moves with
  | nil =>
    refine .inr (.inr ?_)
    rw [step_nil hm]
    split
    · exact h.answers_engineStep
    · exact h.answers_downstreamStep
  | cons m rest =>
    rw [step_cons hm]
    rcases (h.setMoves rest).runMove_cases m with ⟨a, rfl⟩ | ⟨x, rfl⟩ | hnext
    · exact .inl ⟨a, rest, rfl, rfl⟩
    · exact .inr (.inl ⟨x, rest, rfl, rfl⟩)
    · exact .inr (.inr hnext)

/-- Settles O47: the block's own steps answer, and the two ports of the outside world never fault. -/
theorem soundStatesNeverFault : Obligations.SoundStatesNeverFault := by
  intro s h
  rcases h.step_cases with ⟨a, rest, hm, he⟩ | ⟨x, rest, hm, he⟩ | ⟨t, he⟩ <;> rw [he]
  · exact ⟨hostAccess_ne_fault a _, fun _ _ => .inl ⟨a, rest, hm⟩⟩
  · exact ⟨externalStep_ne_fault x _,
      fun _ hr => .inr ⟨x, rest, hm, resp_gt_of_externalStep_refused hr⟩⟩
  · exact ⟨nofun, nofun⟩

end Sys2Proof.Machine
end

section
/-! SUPPORT, O58 and O59. Each operation commutes with an exchange of the frame buffer that keeps the
bytes it may read: the frame for the engine, the payload for a reference unit (20_memory.md R74, R75). -/

namespace Sys2Proof.Machine

/-! ### The exchange -/

/-- The outcome with its next state's buffer exchanged. -/
def exchangeBuffer (m : Memory) (epoch : Nat) : Result → Result
  | .next t => .next (t.withBuffer m epoch)
  | .fault f => .fault f
  | .refused r => .refused r

variable {s : State} {m : Memory} {epoch : Nat}

/-! The fields an operation reads. `(rfl)` keeps them from rewriting by unfolding, so that `simp` takes the
decision procedure of an `if` along with its condition. -/

@[simp] theorem State.withBuffer_off : (s.withBuffer m epoch).off = s.off := (rfl)
@[simp] theorem State.withBuffer_lenL : (s.withBuffer m epoch).lenL = s.lenL := (rfl)
@[simp] theorem State.withBuffer_modeL : (s.withBuffer m epoch).modeL = s.modeL := (rfl)
@[simp] theorem State.withBuffer_code : (s.withBuffer m epoch).code = s.code := (rfl)
@[simp] theorem State.withBuffer_ds : (s.withBuffer m epoch).ds = s.ds := (rfl)
@[simp] theorem State.withBuffer_vlanInfo : (s.withBuffer m epoch).vlanInfo = s.vlanInfo := (rfl)
@[simp] theorem State.withBuffer_config : (s.withBuffer m epoch).config = s.config := (rfl)
@[simp] theorem State.withBuffer_ipOpt : (s.withBuffer m epoch).ipOpt = s.ipOpt := (rfl)

/-- The exchanged buffer reads as the old one at the addresses from `lo` up to `hi`. -/
def State.AgreesOn (s : State) (m : Memory) (epoch lo hi : Nat) : Prop :=
  ∀ a : Nat, lo ≤ a → a < hi → (s.withBuffer m epoch).bufByte a = s.bufByte a

theorem State.AgreesOn.be16 {lo hi a : Nat} (h : s.AgreesOn m epoch lo hi) (hlo : lo ≤ a)
    (hhi : a + 2 ≤ hi) : (s.withBuffer m epoch).be16 a = s.be16 a := by
  rw [State.be16, State.be16, h a hlo (by omega), h (a + 1) (by omega) (by omega)]

/-! ### The engine's operations -/

theorem execEthAddr_withBuffer :
    execEthAddr (s.withBuffer m epoch) = exchangeBuffer m epoch (execEthAddr s) := by
  simp only [execEthAddr, State.withBuffer_lenL]
  split <;> rfl

theorem execTagPeek_withBuffer (h : s.AgreesOn m epoch 0 s.lenL.toNat) :
    execTagPeek (s.withBuffer m epoch) = exchangeBuffer m epoch (execTagPeek s) := by
  simp only [execTagPeek, State.withBuffer_lenL, State.withBuffer_off, State.withBuffer_config]
  split
  · rfl
  · rw [h.be16 (Nat.zero_le _) (by omega)]
    split
    · rfl
    · split <;> rfl

theorem execTagRead_withBuffer (h : s.AgreesOn m epoch 0 s.lenL.toNat) :
    execTagRead (s.withBuffer m epoch) = exchangeBuffer m epoch (execTagRead s) := by
  simp only [execTagRead, State.withBuffer_lenL, State.withBuffer_off, State.withBuffer_config,
    State.withBuffer_vlanInfo]
  split
  · rfl
  · rw [h.be16 (Nat.zero_le _) (by omega)]
    split
    · rfl
    · split <;> rfl

theorem execDispatch_withBuffer :
    execDispatch (s.withBuffer m epoch) = exchangeBuffer m epoch (execDispatch s) := by
  simp only [execDispatch, State.withBuffer_code, State.withBuffer_modeL]
  cases s.modeL with
  | reserved => rfl
  | auto | expectArp | expectIpv4 => dsimp only; split <;> rfl

theorem execDsWait_withBuffer :
    execDsWait (s.withBuffer m epoch) = exchangeBuffer m epoch (execDsWait s) := by
  simp only [execDsWait, State.withBuffer_ds]
  split
  · split <;> rfl
  · rfl

/-- Every read of the engine lies below LEN_L. -/
theorem exec_withBuffer_of_stateCode {i : Instr} (hi : i.space = .stateCode)
    (h : s.AgreesOn m epoch 0 s.lenL.toNat) :
    exec i (s.withBuffer m epoch) = exchangeBuffer m epoch (exec i s) := by
  cases i with
  | idle => rfl
  | ethAddr => exact execEthAddr_withBuffer
  | tagPeek => exact execTagPeek_withBuffer h
  | tagRead => exact execTagRead_withBuffer h
  | etypeLatch => rfl
  | dispatch => exact execDispatch_withBuffer
  | dsWait => exact execDsWait_withBuffer
  | _ => cases hi

/-- Settles O58: the engine's step commutes with the exchange. -/
theorem engineReadsOnlyFrame : Obligations.EngineReadsOnlyFrame := by
  intro i s t m epoch hi hagree h
  rw [exec_withBuffer_of_stateCode hi fun a _ ha => hagree a ha, h]
  rfl

/-! ### The option walk reads its region only -/

section
variable {rd rd' : Nat → Byte}

theorem walkTurn_congr {w : OptWalk} (t : Byte) (h : ∀ a, w.q ≤ a → a < w.e → rd a = rd' a) :
    walkTurn rd t w = walkTurn rd' t w := by
  unfold walkTurn walkEntry
  by_cases hfit : w.e < w.q + 2
  · simp only [if_pos hfit]
  · rw [h (w.q + 1) (by omega) (by omega)]

theorem le_walkTurn_q (t : Byte) (w : OptWalk) : w.q ≤ (walkTurn rd t w).q := by
  cases hw : w.live with
  | false =>
    rw [walkTurn_not_live hw, OptWalk.close]
    split <;> exact Nat.le_refl _
  | true =>
    rcases walkTurn_cases (rd := rd) (t := t) hw with ⟨_, ht⟩ | ⟨_, _, ht⟩ | ⟨_, _, _, _, ht⟩ <;>
      rw [ht]
    · exact Nat.le_add_right _ _

theorem walkOptions_congr : ∀ (n : Nat) {w : OptWalk},
    (∀ a, w.q ≤ a → a < w.e → rd a = rd' a) → walkOptions rd n w = walkOptions rd' n w
  | 0, _, _ => rfl
  | n + 1, w, h => by
    rw [walkOptions_succ, walkOptions_succ]
    split
    · rename_i hlive
      obtain ⟨_, hlt⟩ := OptWalk.live_iff.1 hlive
      rw [← h w.q (Nat.le_refl _) hlt, ← walkTurn_congr (rd w.q) h]
      refine walkOptions_congr n fun a hq he => h a ((le_walkTurn_q _ w).trans hq) ?_
      rwa [walkTurn_e] at he
    · rfl

theorem walkRegion_congr {p ihl : Nat} (h : ∀ a, p ≤ a → a < p + 4 * ihl → rd a = rd' a) :
    walkRegion rd p ihl = walkRegion rd' p ihl :=
  walkOptions_congr _ fun a hq he => h a ((Nat.le_add_right p 20).trans hq) he

end

/-! ### The reference units -/

theorem State.AgreesOn.arpWindowOf {p r : Nat} (h : s.AgreesOn m epoch p (p + r)) (hr : 8 ≤ r)
    (w : AddrWidths) :
    arpWindowOf (s.withBuffer m epoch) p w = Machine.arpWindowOf s p w := by
  simp (disch := omega) only [Machine.arpWindowOf, h.be16, h (p + 4), h (p + 5)]

theorem State.AgreesOn.ipIhl {p r : Nat} (h : s.AgreesOn m epoch p (p + r)) (hr : 20 ≤ r) :
    ipIhl (s.withBuffer m epoch) p = Machine.ipIhl s p := by
  rw [Machine.ipIhl, Machine.ipIhl, h p (Nat.le_refl p) (by omega)]

theorem State.AgreesOn.ipWindowOf {p r : Nat} (h : s.AgreesOn m epoch p (p + r)) (hr : 20 ≤ r)
    (opts : List OptEntry) :
    ipWindowOf (s.withBuffer m epoch) p opts = Machine.ipWindowOf s p opts := by
  simp (disch := omega) only [Machine.ipWindowOf, ipVersion, h.ipIhl hr, h.be16, h p, h (p + 1),
    h (p + 8), h (p + 9)]

theorem execArpDecode_withBuffer
    (h : s.AgreesOn m epoch s.ds.base.toNat (s.ds.base.toNat + s.ds.len.toNat)) :
    execArpDecode (s.withBuffer m epoch) = exchangeBuffer m epoch (execArpDecode s) := by
  simp only [execArpDecode, State.withBuffer_ds, State.withBuffer_config]
  split
  · rfl
  · rw [h.be16 (Nat.le_add_right _ 2) (by omega), h.arpWindowOf (by omega)]
    split
    · rfl
    · split <;> rfl

theorem ipv4Body_withBuffer {p r : Nat} (h : s.AgreesOn m epoch p (p + r)) (hr : 20 ≤ r) :
    ipv4Body (s.withBuffer m epoch) p r = (ipv4Body s p r).withBuffer m epoch := by
  simp only [ipv4Body, h.ipIhl hr, h.ipWindowOf hr, State.withBuffer_ipOpt]
  split
  · rfl
  · rw [walkRegion_congr fun a hlo hhi => h a hlo (by omega)]
    split
    · rfl
    · split <;> rfl

theorem execIpv4Decode_withBuffer
    (h : s.AgreesOn m epoch s.ds.base.toNat (s.ds.base.toNat + s.ds.len.toNat)) :
    execIpv4Decode (s.withBuffer m epoch) = exchangeBuffer m epoch (execIpv4Decode s) := by
  simp only [execIpv4Decode, State.withBuffer_ds, State.withBuffer_config]
  split
  · rfl
  · rw [ipv4Body_withBuffer h (by omega)]
    split <;> rfl

/-- Settles O59: both decodes commute with the exchange. -/
theorem downstreamReadsOnlyPayload : Obligations.DownstreamReadsOnlyPayload := by
  rintro i s t m epoch (rfl | rfl) hagree h
  · rw [exec_arpDecode, execArpDecode_withBuffer hagree, ← exec_arpDecode, h]
    rfl
  · rw [exec_ipv4Decode, execIpv4Decode_withBuffer hagree, ← exec_ipv4Decode, h]
    rfl

end Sys2Proof.Machine
end

section
/-! SUPPORT, O1, O2, O3, O17 and O41. The decoder and the encoder space by space, each the other's inverse
on the bits that carry meaning, and the fields read out of a CTRL word and of a tag control value. -/

namespace Sys2Proof

/-! ### Fields of a word -/

/-- Zero-extending the low `k` bits of a word is masking it. -/
theorem setWidth_setWidth_eq_and {w k : Nat} (hk : k ≤ w) (v : BitVec w) :
    (v.setWidth k).setWidth w = v &&& BitVec.ofNat w (2 ^ k - 1) := by
  have hpos := Nat.two_pow_pos k
  have hpow : 2 ^ k ≤ 2 ^ w := Nat.pow_le_pow_right (by decide) hk
  have hmask : 2 ^ k - 1 < 2 ^ w := by omega
  have hlow : v.toNat % 2 ^ k < 2 ^ w := (Nat.mod_lt _ hpos).trans_le hpow
  apply BitVec.eq_of_toNat_eq
  rw [BitVec.toNat_and, BitVec.toNat_ofNat, Nat.mod_eq_of_lt hmask, Nat.and_two_pow_sub_one_eq_mod,
    BitVec.toNat_setWidth, BitVec.toNat_setWidth, Nat.mod_eq_of_lt hlow]

/-- A narrow code is read back from the word it stands in. -/
theorem setWidth_setWidth_self {n : Nat} (c : BitVec n) (hn : n ≤ 32) :
    (c.setWidth 32).setWidth n = c := by
  rw [BitVec.setWidth_setWidth_of_le c hn, BitVec.setWidth_eq]

/-- The fields of an option type byte (30_encoding.md R114). -/
theorem Machine.optTypeByte_number (copy : BitVec 1) (cls : BitVec 2) (number : BitVec 5) :
    (optTypeByte copy cls number).extractLsb' 0 5 = number :=
  BitVec.extractLsb'_append_eq_right

theorem Machine.optTypeByte_cls (copy : BitVec 1) (cls : BitVec 2) (number : BitVec 5) :
    (optTypeByte copy cls number).extractLsb' 5 2 = cls :=
  (BitVec.extractLsb'_append_eq_of_le (Nat.le_refl 5)).trans BitVec.extractLsb'_append_eq_right

theorem Machine.optTypeByte_copy (copy : BitVec 1) (cls : BitVec 2) (number : BitVec 5) :
    (optTypeByte copy cls number).extractLsb' 7 1 = copy :=
  (BitVec.extractLsb'_append_eq_of_le (by decide)).trans BitVec.extractLsb'_append_eq_left

/-- An option type byte is its fields side by side. -/
theorem Machine.optTypeByte_extract (t : Byte) :
    optTypeByte (t.extractLsb' 7 1) (t.extractLsb' 5 2) (t.extractLsb' 0 5) = t := by
  rw [optTypeByte, BitVec.extractLsb'_append_extractLsb'_eq_extractLsb' (len₁ := 2) rfl]
  exact BitVec.extractLsb'_append_extractLsb' (w := 3) (len := 5)

/-! ### Encode, then decode -/

theorem encode_toNat_lt (i : Instr) : (encode i).toNat < 2 ^ i.space.width := by
  cases i with
  | etypeOther code => exact (Laws.EncodeFits.etypeOther code).1
  | arpBodyOther protoFmt => exact (Laws.EncodeFits.arpBodyOther protoFmt).1
  | setMode mode => exact (Laws.EncodeFits.setMode mode).1
  | optEol copy cls => exact (Laws.EncodeFits.optEol copy cls).1
  | optTlv copy cls number => exact (Laws.EncodeFits.optTlv copy cls number).1
  | _ => decide

section
variable {code : Half} {copy : BitVec 1} {cls : BitVec 2} {number : BitVec 5}

theorem decodeEtherType_encode (h : (Instr.etypeOther code).wf = true) :
    decodeEtherType ((encode (.etypeOther code)).setWidth 16) = .etypeOther code := by
  obtain ⟨⟨hvlan, harp⟩, hip⟩ : (code ≠ 0x8100#16 ∧ code ≠ 0x0806#16) ∧ code ≠ 0x0800#16 := by
    simpa [Instr.wf] using h
  rw [encode, setWidth_setWidth_self code (by decide), decodeEtherType, if_neg hvlan, if_neg harp,
    if_neg hip]

theorem decodeCtrl_encode : ∀ mode : BitVec 2,
    decodeCtrl (encode (.setMode mode)) = .setMode mode := by decide

theorem decodeArpProto_encode (h : (Instr.arpBodyOther code).wf = true) :
    decodeArpProto ((encode (.arpBodyOther code)).setWidth 16) = .arpBodyOther code := by
  rw [encode, setWidth_setWidth_self code (by decide), decodeArpProto, if_neg (bne_iff_ne.1 h)]

theorem encode_optEol_setWidth :
    (encode (.optEol copy cls)).setWidth 8 = Machine.optTypeByte copy cls 0#5 :=
  setWidth_setWidth_self _ (by decide)

theorem encode_optTlv_setWidth :
    (encode (.optTlv copy cls number)).setWidth 8 = Machine.optTypeByte copy cls number :=
  setWidth_setWidth_self _ (by decide)

theorem decodeOptType_encode_optEol :
    decodeOptType ((encode (.optEol copy cls)).setWidth 8) = .optEol copy cls := by
  rw [encode_optEol_setWidth, decodeOptType, if_pos (Machine.optTypeByte_number ..),
    Machine.optTypeByte_cls, Machine.optTypeByte_copy]

theorem decodeOptType_encode_optTlv (h : (Instr.optTlv copy cls number).wf = true) :
    decodeOptType ((encode (.optTlv copy cls number)).setWidth 8) = .optTlv copy cls number := by
  rw [encode_optTlv_setWidth, decodeOptType, Machine.optTypeByte_number, if_neg (bne_iff_ne.1 h),
    Machine.optTypeByte_cls, Machine.optTypeByte_copy]

end

/-- Settles O2: the word of an instruction fits its space, and that space's decoder finds the row the
term stands for. -/
theorem decodeOfEncode : Obligations.DecodeOfEncode := by
  intro i hwf
  unfold decodeIn
  rw [if_neg (Nat.not_le_of_lt (encode_toNat_lt i))]
  cases i with
  | etypeOther code => exact congrArg Decoded.ok (decodeEtherType_encode hwf)
  | setMode mode => exact congrArg Decoded.ok (decodeCtrl_encode mode)
  | arpBodyOther f => exact congrArg Decoded.ok (decodeArpProto_encode hwf)
  | optEol copy cls => exact congrArg Decoded.ok decodeOptType_encode_optEol
  | optTlv copy cls number => exact congrArg Decoded.ok (decodeOptType_encode_optTlv hwf)
  | _ => rfl

/-! ### Decode, then encode -/

/-- `i` is a well-formed instruction of `sp`, and `w` is its word. -/
def Instr.HasWord (i : Instr) (sp : Space) (w : Word) : Prop :=
  i.wf = true ∧ i.space = sp ∧ encode i = w

theorem decodeEtherType_hasWord (c : Half) :
    (decodeEtherType c).HasWord .etherType (c.setWidth 32) := by
  rcases Machine.decodeEtherType_cases c with
    ⟨h, rfl, _⟩ | ⟨h, rfl, _⟩ | ⟨h, rfl, _⟩ | ⟨h, hother⟩ <;> rw [h]
  · exact ⟨rfl, rfl, rfl⟩
  · exact ⟨rfl, rfl, rfl⟩
  · exact ⟨rfl, rfl, rfl⟩
  · exact ⟨by simpa [Instr.wf, and_assoc] using Machine.classify_eq_other.1 hother, rfl, rfl⟩

theorem decodeState_hasWord {c : BitVec 4} {i : Instr} (h : decodeState c = .ok i) :
    i.HasWord .stateCode (c.setWidth 32) := by
  have hall : ∀ c : BitVec 4, ∀ i ∈ (decodeState c).instr?,
      i.wf = true ∧ i.space = .stateCode ∧ encode i = c.setWidth 32 := by decide
  exact hall c i (Decoded.instr?_eq_some.2 h)

/-- A CTRL word is decoded by its bits 2:0 alone. -/
theorem decodeCtrl_setWidth (w : Word) :
    decodeCtrl ((w.setWidth 3).setWidth 32) = decodeCtrl w := by
  simp [decodeCtrl, BitVec.extractLsb'_setWidth_of_le]

theorem decodeCtrl_hasWord (w : Word) :
    (decodeCtrl w).HasWord .ctrlWord ((w.setWidth 3).setWidth 32) := by
  have hall : ∀ c : BitVec 3, (decodeCtrl (c.setWidth 32)).wf = true ∧
      (decodeCtrl (c.setWidth 32)).space = .ctrlWord ∧
      encode (decodeCtrl (c.setWidth 32)) = c.setWidth 32 := by decide
  rw [← decodeCtrl_setWidth w]
  exact hall (w.setWidth 3)

theorem decodeDsClass_hasWord (c : BitVec 1) :
    (decodeDsClass c).HasWord .dsClass (c.setWidth 32) := by
  rcases BitVec.eq_zero_or_eq_one c with rfl | rfl <;> exact ⟨rfl, rfl, rfl⟩

theorem decodeArpProto_hasWord (f : Half) :
    (decodeArpProto f).HasWord .arpProto (f.setWidth 32) := by
  unfold decodeArpProto
  split
  · subst f
    exact ⟨rfl, rfl, rfl⟩
  · exact ⟨bne_iff_ne.2 ‹_›, rfl, rfl⟩

theorem decodeOptType_hasWord (t : Byte) :
    (decodeOptType t).HasWord .optType (t.setWidth 32) := by
  have hword := congrArg (BitVec.setWidth 32) (Machine.optTypeByte_extract t)
  unfold decodeOptType
  split
  · rename_i heol
    rw [heol] at hword
    exact ⟨rfl, rfl, hword⟩
  · exact ⟨bne_iff_ne.2 ‹_›, rfl, hword⟩

/-- The word of a decoded instruction is the low bits of the word decoded, which the space's mask keeps. -/
theorem Instr.HasWord.and_liveBits {i : Instr} {sp : Space} {w : Word} {k : Nat} (hk : k ≤ 32)
    (hmask : BitVec.ofNat 32 (2 ^ k - 1) = sp.liveBits)
    (h : i.HasWord sp ((w.setWidth k).setWidth 32)) : i.HasWord sp (w &&& sp.liveBits) := by
  rwa [setWidth_setWidth_eq_and hk, hmask] at h

/-- Settles O3: each space's decoder answers a well-formed row that keeps the bits it read. -/
theorem encodeOfDecode : Obligations.EncodeOfDecode := by
  intro sp w i h
  have hfit := toNat_lt_of_decodeIn_eq_ok h
  unfold decodeIn at h
  rw [if_neg (Nat.not_le_of_lt hfit)] at h
  cases sp with
  | stateCode => exact (decodeState_hasWord h).and_liveBits (k := 4) (by decide) rfl
  | etherType => cases h; exact (decodeEtherType_hasWord _).and_liveBits (by decide) rfl
  | ctrlWord => cases h; exact (decodeCtrl_hasWord w).and_liveBits (by decide) rfl
  | dsClass => cases h; exact (decodeDsClass_hasWord _).and_liveBits (by decide) rfl
  | arpProto => cases h; exact (decodeArpProto_hasWord _).and_liveBits (by decide) rfl
  | optType => cases h; exact (decodeOptType_hasWord _).and_liveBits (by decide) rfl

/-- Settles O1: the words are closed terms, and the decoder computes on each. -/
theorem specWordsDecode : Obligations.SpecWordsDecode := by
  unfold Obligations.SpecWordsDecode
  decide

/-! ### The fields of CTRL.MODE and of a tag control value -/

namespace Machine

/-- Settles O17: MODE holds the two bits by their code, and CTRL reads that code at bits 2:1. -/
theorem setModeStoresMode : Obligations.SetModeStoresMode := by
  intro s b
  refine ⟨s.setCtrlMode (ParseMode.ofBits b), exec_setMode b s, rfl, ParseMode.code_ofBits b, ?_⟩
  rw [State.readReg, State.setCtrlMode_ctrlMode, ParseMode.code_ofBits]

theorem tagPriority_setWidth (v : Half) : (tagPriority v).setWidth 16 = v >>> 13 := by
  have hv := v.isLt
  apply BitVec.eq_of_toNat_eq
  rw [tagPriority, BitVec.toNat_setWidth, BitVec.extractLsb'_toNat, BitVec.toNat_ushiftRight,
    Nat.shiftRight_eq_div_pow]
  omega

theorem tagDropEligible_iff (v : Half) :
    tagDropEligible v = true ↔ (v >>> 12) &&& 1#16 ≠ 0#16 := by
  have hbit : tagDropEligible v = (v >>> 12).getLsbD 0 := by
    rw [BitVec.getLsbD_ushiftRight, BitVec.getLsbD_eq_extractLsb']
    rfl
  rw [hbit, BitVec.and_one_eq_setWidth_ofBool_getLsbD]
  cases (v >>> 12).getLsbD 0 <;> decide

theorem tagVlanId_setWidth (v : Half) : (tagVlanId v).setWidth 16 = v &&& 0x0FFF#16 := by
  rw [tagVlanId, ← BitVec.setWidth_eq_extractLsb' (by decide)]
  exact setWidth_setWidth_eq_and (by decide) v

/-- Settles O41: each field, zero-extended, is its formula. -/
theorem tagControlFields : Obligations.TagControlFields := fun v =>
  ⟨tagPriority_setWidth v, tagDropEligible_iff v, tagVlanId_setWidth v⟩

end Machine
end Sys2Proof
end

section
/-! SUPPORT, O4 and O5. The stops of log 10, and what a step runs: the instruction its agent's word
decodes to, or the move it is given. -/

namespace Sys2Proof.Machine

variable {s : State}

/-! ### Stops (log 10) -/

theorem decodeState_eq_reject : ∀ c : BitVec 4,
    6 < c.toNat ↔ decodeState c = .reject (.reservedState c) := by decide

theorem engineStep_reservedState (h : 6 < s.state.toNat) :
    engineStep s = .fault .reservedState := by
  unfold engineStep
  rw [(decodeState_eq_reject s.state).1 h]

theorem engineEnabled_of_reserved (h : 6 < s.state.toNat) : s.engineEnabled = true := by
  have hne {c : BitVec 4} (hc : c.toNat ≤ 6) : s.state ≠ c := fun he => by
    rw [he] at h
    omega
  exact State.engineEnabled_iff.2 ⟨hne (by decide), fun hw => absurd hw (hne (by decide))⟩

theorem execDispatch_reservedMode (h : s.modeL = .reserved) :
    execDispatch s = .fault .reservedMode := by
  unfold execDispatch
  rw [h]

theorem execTagPeek_bufferAddress (hl : s.off.toNat + 2 ≤ s.lenL.toNat)
    (hm : s.config.maxFrameLen.toNat < s.off.toNat + 2) :
    execTagPeek s = .fault .bufferAddress := by
  rcases execTagPeek_cases s with ⟨_, _⟩ | ⟨_, _, he⟩ | ⟨_, _, _⟩ | ⟨_, _, _⟩
  · omega
  · exact he
  · omega
  · omega

theorem execTagRead_bufferAddress (hl : s.off.toNat + 4 ≤ s.lenL.toNat)
    (hc : s.vlanInfo.count ≠ s.config.vlanMaxDepth)
    (hm : s.config.maxFrameLen.toNat < s.off.toNat + 4) :
    execTagRead s = .fault .bufferAddress := by
  rcases execTagRead_cases s with ⟨_, _⟩ | ⟨_, hfull, _⟩ | ⟨_, _, _, he⟩ | ⟨_, _, _, _⟩
  · omega
  · exact absurd hfull hc
  · exact he
  · omega

theorem execArpDecode_bufferAddress (hr : 8 ≤ s.ds.len.toNat)
    (hm : s.config.maxFrameLen.toNat < s.ds.base.toNat + s.ds.len.toNat) :
    execArpDecode s = .fault .bufferAddress := by
  rcases execArpDecode_cases s with ⟨_, _⟩ | ⟨_, _, he⟩ | ⟨_, _, _⟩ | ⟨_, _, _⟩
  · omega
  · exact he
  · omega
  · omega

theorem execIpv4Decode_bufferAddress (hr : 20 ≤ s.ds.len.toNat)
    (hm : s.config.maxFrameLen.toNat < s.ds.base.toNat + s.ds.len.toNat) :
    execIpv4Decode s = .fault .bufferAddress := by
  rcases execIpv4Decode_cases s with ⟨_, _⟩ | ⟨_, _, he⟩ | ⟨_, _, _⟩ | ⟨_, _, _⟩ | ⟨_, _, _⟩
  · omega
  · exact he
  · omega
  · omega
  · omega

/-- Settles O4: each stop is the arm of its operation that the other arms' conditions leave. -/
theorem unreachableStatesStop : Obligations.UnreachableStatesStop := by
  refine ⟨decodeState_eq_reject, fun s hm h => ?_, fun _ => execDispatch_reservedMode,
    fun _ => execTagPeek_bufferAddress, fun _ => execTagRead_bufferAddress,
    fun _ hm => ⟨fun hr => execArpDecode_bufferAddress hr hm,
      fun hr => execIpv4Decode_bufferAddress hr hm⟩, fun _ _ _ _ he => if_pos he⟩
  rw [step_nil hm, if_pos (engineEnabled_of_reserved h), engineStep_reservedState h]

/-! ### What a step runs -/

theorem engineStep_of_instr? {i : Instr} (h : (decodeState s.state).instr? = some i) :
    engineStep s = exec i s := by
  unfold engineStep
  rw [Decoded.instr?_eq_some.1 h]

theorem downstreamStep_enabled (h : s.referenceEnabled = true) :
    downstreamStep s = exec (decodeDsClass s.ds.cls.bit) s :=
  if_pos h

theorem downstreamStep_disabled (h : s.referenceEnabled = false) : downstreamStep s = .next s := by
  rw [downstreamStep, h]
  rfl

/-- The one host access that presents an instruction is a 32-bit CTRL write (30_encoding.md R115). -/
theorem hostAccess_of_instr? {a : HostAccess} {i : Instr} (h : a.instr? = some i) :
    hostAccess a s = exec i s := by
  cases a with
  | regWrite off width value =>
    obtain ⟨⟨rfl, rfl⟩, rfl⟩ : (width = .word ∧ off = Reg.ctrl.offset) ∧ decodeCtrl value = i := by
      simpa [HostAccess.instr?] using h
    exact hostAccess_regWrite rfl value s
  | regRead | bufRead | bufWrite => cases h

/-- A given move that presents a word runs the instruction it decodes to. -/
theorem runMove_of_fetched? {m : Move} {rest : List Move} {i : Instr} (hm : s.moves = m :: rest)
    (h : s.fetched? = some i) : runMove m (s.setMoves rest) = exec i (s.setMoves rest) := by
  unfold State.fetched? at h
  rw [hm] at h
  cases m with
  | host a => exact hostAccess_of_instr? h
  | engine => exact engineStep_of_instr? (s := s.setMoves rest) h
  | downstream =>
    obtain ⟨hr, rfl⟩ : s.referenceEnabled = true ∧ decodeDsClass s.ds.cls.bit = i := by
      simpa using h
    exact downstreamStep_enabled (s := s.setMoves rest) hr
  | external | reset => cases h
  | classify | selectWidths | optionByte => cases h; rfl

/-- With no move given, the enabled agent runs the instruction its word decodes to. -/
theorem step_nil_of_fetched? {i : Instr} (hm : s.moves = []) (h : s.fetched? = some i) :
    step s = exec i s := by
  unfold State.fetched? at h
  rw [hm] at h
  rw [step_nil hm]
  cases he : s.engineEnabled with
  | true => exact engineStep_of_instr? (by simpa [he] using h)
  | false =>
    obtain ⟨hr, rfl⟩ : s.referenceEnabled = true ∧ decodeDsClass s.ds.cls.bit = i := by
      simpa [he] using h
    exact downstreamStep_enabled hr

theorem step_of_fetched? {i : Instr} (h : s.fetched? = some i) :
    step s = exec i (s.setMoves s.moves.tail) := by
  cases hm : s.moves with
  | nil =>
    have hs : s.setMoves [] = s := by rw [← hm]; rfl
    rw [step_nil_of_fetched? hm h, List.tail_nil, hs]
  | cons m rest => rw [step_cons hm, List.tail_cons, runMove_of_fetched? hm h]

/-- Settles O5: a step runs the instruction fetched, or its move, or nothing. -/
theorem stepRunsDecodedInstruction : Obligations.StepRunsDecodedInstruction := by
  refine ⟨fun _ _ => step_of_fetched?, fun _ _ _ => step_cons, fun _ _ _ => step_cons,
    fun _ _ => step_cons, fun s rest hm hr => ?_, fun s hm he hr => ?_⟩
  · rw [step_cons hm]
    exact downstreamStep_disabled (s := s.setMoves rest) hr
  · rw [step_nil hm, he]
    exact downstreamStep_disabled hr

end Sys2Proof.Machine
end

section
/-! SUPPORT, O7 and O33. The combinational rows: the classifier's answers (40_ethertype_classifier.md
R140), and one frame equation for the rows of all three decisions. -/

namespace Sys2Proof.Machine

variable {s t : State}

/-! ### The classifier -/

/-- Settles O7: each row answers the class that the class table gives its code. -/
theorem classifierRowsAnswer : Obligations.ClassifierRowsAnswer := by
  intro s
  refine ⟨exec_vlanTpid s, exec_etypeArp s, exec_etypeIpv4 s, fun c hvlan harp hipv4 => ?_,
    fun c => exec_decodeEtherType c s⟩
  rw [exec_etypeOther, classify_eq_other.2 ⟨hvlan, harp, hipv4⟩]
  rfl

/-! ### Frames -/

theorem execOptTlv_frame {copy : BitVec 1} {cls : BitVec 2} {number : BitVec 5}
    (h : execOptTlv copy cls number s = .next t) : t = { s with units := t.units } := by
  unfold execOptTlv at h
  split at h <;> cases h
  rfl

/-- A row of the classifier, of the width selection or of the option walk writes `units` and nothing
else (log 7). -/
theorem exec_combinational_frame {i : Instr}
    (hi : i.space = .etherType ∨ i.space = .arpProto ∨ i.space = .optType)
    (h : exec i s = .next t) : t = { s with units := t.units } := by
  cases i with
  | vlanTpid | etypeArp | etypeIpv4 | etypeOther => cases h; rfl
  | arpBodyIpv4 | arpBodyOther => cases h; rfl
  | optEol => cases h; rfl
  | optTlv => exact execOptTlv_frame h
  | _ => simp [Instr.space] at hi

/-- Settles O33: the frame equation, and no instruction writes the buffer. -/
theorem combinationalRowFrame : Obligations.CombinationalRowFrame := fun _ _ _ hi h =>
  ⟨exec_combinational_frame hi h, (sameBuffer_of_exec h).bufByte⟩

end Sys2Proof.Machine
end

section
/-! SUPPORT, O9. The Ethernet reader: both sides of the one length check of ETH_ADDR
(41_ethernet_reader.md R151). -/

namespace Sys2Proof.Machine

/-- What `raise TOO_SHORT` writes, field by field (45_frame_fsm.md R244): CLASS and ERR_DS stay. -/
theorem State.raise_tooShort_eq (s : State) : s.raise .tooShort =
    { s with status := ⟨false, true, s.status.cls, 1#4, s.status.errDs⟩, state := 0x0#4 } := rfl

/-- Settles O9: the length check decides between the two outcomes of ETH_ADDR, which exclude each
other. -/
theorem ethAddrLatchesViews : Obligations.EthAddrLatchesViews := by
  intro s
  rw [exec_ethAddr, ← State.raise_tooShort_eq]
  obtain ⟨hshort, he⟩ | ⟨hlong, he⟩ := execEthAddr_cases s
  · exact ⟨fun _ => he, fun hlong => absurd hshort (Nat.not_lt.2 hlong)⟩
  · exact ⟨fun hshort => absurd hshort (Nat.not_lt.2 hlong), fun _ => he⟩

end Sys2Proof.Machine
end

section
/-! SUPPORT, O10, O11 and O50. The two operations of the tag loop (42_vlan_stack.md R162, R164), and
the depth at which the accumulator never fills (R165). -/

namespace Sys2Proof.Machine

variable {s : State}

/-- Settles O10: past the frame the peek fails; inside it the code read decides the branch. -/
theorem tagPeekReadsCode : Obligations.TagPeekReadsCode := by
  intro s hframe
  rw [exec_tagPeek, ← State.raise_tooShort_eq]
  rcases execTagPeek_cases s with ⟨hshort, he⟩ | ⟨_, _, _⟩ | ⟨hin, _, hc, he⟩ | ⟨hin, _, hc, he⟩
  · exact ⟨fun _ => he, fun hin => absurd hshort (Nat.not_lt.2 hin)⟩
  · omega
  · refine ⟨fun hshort => absurd hshort (Nat.not_lt.2 hin), fun _ => ⟨_, he, ?_⟩⟩
    rw [if_pos hc, hc]
    rfl
  · refine ⟨fun hshort => absurd hshort (Nat.not_lt.2 hin), fun _ => ⟨_, he, ?_⟩⟩
    rw [if_neg hc]
    rfl

/-! ### The counters and the cursor behind an appended tag, as natural numbers -/

theorem State.toNat_pushTag_off (h : s.off.toNat + 4 < 65536) (v : Half) :
    (s.pushTag v).off.toNat = s.off.toNat + 4 :=
  toNat_half h

theorem State.toNat_pushTag_count (h : s.vlanInfo.count.toNat + 1 < 65536) (v : Half) :
    (s.pushTag v).vlanInfo.count.toNat = s.vlanInfo.count.toNat + 1 :=
  toNat_half h

theorem State.toNat_pushTag_bytes (h : 4 * (s.vlanInfo.count.toNat + 1) < 65536) (v : Half) :
    (s.pushTag v).vlanInfo.bytes.toNat = 4 * (s.vlanInfo.count.toNat + 1) :=
  toNat_half h

/-- What `raise TAG_OVERFLOW` writes, field by field (45_frame_fsm.md R244): CLASS and ERR_DS
stay. -/
theorem State.raise_tagOverflow_eq (s : State) : s.raise .tagOverflow =
    { s with status := ⟨false, true, s.status.cls, 6#4, s.status.errDs⟩, state := 0x0#4 } := rfl

/-- Settles O11: the two checks in their order, then the append. -/
theorem tagReadAppendsTag : Obligations.TagReadAppendsTag := by
  intro s hframe
  have hlen := s.lenL.isLt
  rw [exec_tagRead, ← State.raise_tooShort_eq, ← State.raise_tagOverflow_eq]
  rcases execTagRead_cases s with ⟨hshort, he⟩ | ⟨hin, hfull, he⟩ | ⟨_, _, _, _⟩ |
    ⟨hin, hfree, _, he⟩
  · exact ⟨fun _ => he, fun hin => absurd hshort (Nat.not_lt.2 hin),
      fun hin => absurd hshort (Nat.not_lt.2 hin)⟩
  · exact ⟨fun hshort => absurd hshort (Nat.not_lt.2 hin), fun _ _ => he,
      fun _ hfree => absurd hfull hfree⟩
  · omega
  · exact ⟨fun hshort => absurd hshort (Nat.not_lt.2 hin), fun _ hfull => absurd hfull hfree,
      fun _ _ hfit => ⟨_, he, rfl, arrayRead_write_same ..,
        fun j hj => arrayRead_write_other _ _ hj, State.toNat_pushTag_count (by omega) _,
        State.toNat_pushTag_bytes hfit _, State.toNat_pushTag_off (by omega) _⟩⟩

/-- A further complete tag leaves room in an accumulator of a slot for every tag the buffer can hold
(42_vlan_stack.md R165). -/
theorem State.Inv.count_ne_vlanMaxDepth (h : s.Inv) (hs : s.state = StateCode.tagRead)
    (hdeep : (s.config.maxFrameLen.toNat - 12) / 4 ≤ s.config.vlanMaxDepth.toNat)
    (hin : s.off.toNat + 4 ≤ s.lenL.toNat) : s.vlanInfo.count ≠ s.config.vlanMaxDepth := by
  intro hfull
  obtain ⟨hoff, _⟩ := h.atTagRead hs
  have hframe := h.frame
  rw [← hfull] at hdeep
  omega

/-- Settles O50: TAG_READ fails on the frame's length, or appends a tag and leaves STATUS. -/
theorem deepAccumulatorNeverOverflows : Obligations.DeepAccumulatorNeverOverflows := by
  intro s t h hs herr hdeep ht
  rw [exec_tagRead] at ht
  rcases execTagRead_cases s with ⟨_, he⟩ | ⟨hin, hfull, _⟩ | ⟨_, _, _, he⟩ | ⟨_, _, _, he⟩
  · cases he.symm.trans ht
    rw [State.raise_status, Status.finished_errCode]
    decide
  · exact absurd hfull (h.count_ne_vlanMaxDepth hs hdeep hin)
  · cases he.symm.trans ht
  · cases he.symm.trans ht
    rw [State.pushTag_status, herr]
    decide

end Sys2Proof.Machine
end

section
/-! SUPPORT, O51. Runs of the block with no move given, and the tag loop along one (42_vlan_stack.md
R167). -/

namespace Sys2Proof.Machine

/-! ### Runs of any machine -/

section
variable {M : Host.Core} {s t : M.State}

theorem run_succ (h : M.step s = .next t) (n : Nat) : M.run (n + 1) s = M.run n t := by
  rw [Host.Core.run, h]

theorem run_add {m : Nat} (n : Nat) (h : M.run m s = .next t) : M.run (m + n) s = M.run n t := by
  induction m generalizing s with
  | zero =>
    cases h
    rw [Nat.zero_add]
  | succ m ih =>
    rw [Host.Core.run] at h
    split at h
    · rename_i hs
      rw [Nat.succ_add, run_succ hs, ih h]
    · cases h
    · cases h

end

variable {s t : State}

/-! ### The engine's steps of the loop -/

/-- With no move given, a code outside IDLE and DS_WAIT runs its operation (log 1). -/
theorem step_of_stateCode {c : BitVec 4} {i : Instr} (hm : s.moves = []) (hs : s.state = c)
    (hidle : c ≠ StateCode.idle) (hwait : c ≠ StateCode.dsWait) (hi : decodeState c = .ok i) :
    step s = exec i s := by
  subst hs
  rw [step_nil hm, if_pos (State.engineEnabled_iff.2 ⟨hidle, fun hw => absurd hw hwait⟩)]
  exact engineStep_of_instr? (by rw [hi]; rfl)

theorem step_tagPeek (hm : s.moves = []) (hs : s.state = StateCode.tagPeek) :
    step s = execTagPeek s :=
  step_of_stateCode hm hs (by decide) (by decide) rfl

theorem step_tagRead (hm : s.moves = []) (hs : s.state = StateCode.tagRead) :
    step s = execTagRead s :=
  step_of_stateCode hm hs (by decide) (by decide) rfl

/-! ### The successes of the two operations -/

/-- The state in which TAG_PEEK leaves a tag at the cursor (42_vlan_stack.md R162). -/
def State.peekTag (s : State) : State :=
  ((s.setCode 0x8100#16).answerClass .vlan).goto StateCode.tagRead

theorem execTagPeek_of_tag (hin : s.off.toNat + 2 ≤ s.lenL.toNat)
    (hframe : s.lenL.toNat ≤ s.config.maxFrameLen.toNat) (hc : s.be16 s.off.toNat = 0x8100#16) :
    execTagPeek s = .next s.peekTag := by
  rcases execTagPeek_cases s with ⟨_, _⟩ | ⟨_, _, _⟩ | ⟨_, _, _, he⟩ | ⟨_, _, hne, _⟩
  · omega
  · omega
  · exact he
  · exact absurd hc hne

theorem execTagPeek_of_not_tag (hin : s.off.toNat + 2 ≤ s.lenL.toNat)
    (hframe : s.lenL.toNat ≤ s.config.maxFrameLen.toNat) (hc : s.be16 s.off.toNat ≠ 0x8100#16) :
    execTagPeek s = .next (((s.setCode (s.be16 s.off.toNat)).answerClass
      (classify (s.be16 s.off.toNat))).goto StateCode.etypeLatch) := by
  rcases execTagPeek_cases s with ⟨_, _⟩ | ⟨_, _, _⟩ | ⟨_, _, htag, _⟩ | ⟨_, _, _, he⟩
  · omega
  · omega
  · exact absurd htag hc
  · exact he

theorem execTagRead_of_free (hin : s.off.toNat + 4 ≤ s.lenL.toNat)
    (hframe : s.lenL.toNat ≤ s.config.maxFrameLen.toNat)
    (hfree : s.vlanInfo.count ≠ s.config.vlanMaxDepth) :
    execTagRead s = .next (s.pushTag (s.be16 (s.off.toNat + 2))) := by
  rcases execTagRead_cases s with ⟨_, _⟩ | ⟨_, hfull, _⟩ | ⟨_, _, _, _⟩ | ⟨_, _, _, he⟩
  · omega
  · exact absurd hfull hfree
  · omega
  · exact he

/-! ### One turn of the loop -/

/-- The state one turn of the loop leads to: the tag at the cursor peeked and appended
(42_vlan_stack.md R160). -/
def State.takeTag (s : State) : State := s.peekTag.pushTag (s.be16 (s.off.toNat + 2))

theorem State.takeTag_vlanTag (s : State) : s.takeTag.vlanTag =
    arrayWrite s.vlanTag s.vlanInfo.count.toNat (s.be16 (s.off.toNat + 2)) := rfl

theorem State.toNat_takeTag_off (h : s.off.toNat + 4 < 65536) :
    s.takeTag.off.toNat = s.off.toNat + 4 :=
  State.toNat_pushTag_off (s := s.peekTag) h _

theorem State.toNat_takeTag_count (h : s.vlanInfo.count.toNat + 1 < 65536) :
    s.takeTag.vlanInfo.count.toNat = s.vlanInfo.count.toNat + 1 :=
  State.toNat_pushTag_count (s := s.peekTag) h _

theorem State.toNat_takeTag_bytes (h : 4 * (s.vlanInfo.count.toNat + 1) < 65536) :
    s.takeTag.vlanInfo.bytes.toNat = 4 * (s.vlanInfo.count.toNat + 1) :=
  State.toNat_pushTag_bytes (s := s.peekTag) h _

theorem run_takeTag (hm : s.moves = []) (hs : s.state = StateCode.tagPeek)
    (hin : s.off.toNat + 4 ≤ s.lenL.toNat) (hframe : s.lenL.toNat ≤ s.config.maxFrameLen.toNat)
    (hc : s.be16 s.off.toNat = 0x8100#16) (hfree : s.vlanInfo.count ≠ s.config.vlanMaxDepth) :
    core.run 2 s = .next s.takeTag := by
  have hpeek : step s = .next s.peekTag :=
    (step_tagPeek hm hs).trans (execTagPeek_of_tag (by omega) hframe hc)
  have hread : step s.peekTag = .next s.takeTag :=
    (step_tagRead (s := s.peekTag) hm rfl).trans
      (execTagRead_of_free (s := s.peekTag) hin hframe hfree)
  exact (run_succ (M := core) hpeek 1).trans (run_succ (M := core) hread 0)

/-- `t` is what the loop makes of `s` in `j` turns from the first tag (42_vlan_stack.md R167): at
TAG_PEEK, the first `j` slots holding the tag control fields of the frame in order, the others as
they were, and no register changed that the loop does not write. -/
structure State.TagsRead (s t : State) (j : Nat) : Prop where
  /-- The registers the loop writes, and no other. -/
  frame : t = { s with
    state := StateCode.tagPeek, code := t.code, off := t.off
    vlanTag := t.vlanTag, vlanInfo := t.vlanInfo, units := t.units }
  /-- OFF is behind the tags. -/
  off : t.off.toNat = 12 + 4 * j
  /-- VLAN_COUNT counts them. -/
  count : t.vlanInfo.count.toNat = j
  /-- VLAN_BYTES is their length. -/
  bytes : t.vlanInfo.bytes.toNat = 4 * j
  /-- The tags stand in frame order. -/
  tags : ∀ i, i < j → arrayRead t.vlanTag i = s.be16 (14 + 4 * i)
  /-- The slots behind them keep their values. -/
  others : ∀ i, j ≤ i → arrayRead t.vlanTag i = arrayRead s.vlanTag i

namespace State.TagsRead

theorem zero (hs : s.state = StateCode.tagPeek) (hoff : s.off = 12#16)
    (hvlan : s.vlanInfo = ⟨0#16, 0#16⟩) : s.TagsRead s 0 where
  frame := by rw [← hs]
  off := by rw [hoff]; rfl
  count := by rw [hvlan]; rfl
  bytes := by rw [hvlan]; rfl
  tags := nofun
  others _ _ := rfl

variable {j : Nat}

theorem state (h : s.TagsRead t j) : t.state = StateCode.tagPeek := by rw [h.frame]
theorem moves (h : s.TagsRead t j) : t.moves = s.moves := by rw [h.frame]
theorem lenL (h : s.TagsRead t j) : t.lenL = s.lenL := by rw [h.frame]
theorem config (h : s.TagsRead t j) : t.config = s.config := by rw [h.frame]
theorem status (h : s.TagsRead t j) : t.status = s.status := by rw [h.frame]
theorem addrViews (h : s.TagsRead t j) : t.addrViews = s.addrViews := by rw [h.frame]
theorem frameBuf (h : s.TagsRead t j) : t.frameBuf = s.frameBuf := by rw [h.frame]

theorem be16 (h : s.TagsRead t j) (a : Nat) : t.be16 a = s.be16 a := by
  rw [h.frame]
  rfl

theorem takeTag (h : s.TagsRead t j) (hin : 12 + 4 * (j + 1) ≤ s.lenL.toNat) :
    s.TagsRead t.takeTag (j + 1) := by
  have hlen := s.lenL.isLt
  have hoff := h.off
  have hcount := h.count
  have hslot : t.takeTag.vlanTag = arrayWrite t.vlanTag j (s.be16 (14 + 4 * j)) := by
    rw [takeTag_vlanTag, h.count, h.be16, h.off, Nat.add_right_comm]
  refine ⟨?_, ?_, ?_, ?_, fun i hi => ?_, fun i hi => ?_⟩
  · rw [h.frame]
    rfl
  · rw [toNat_takeTag_off] <;> omega
  · rw [toNat_takeTag_count] <;> omega
  · rw [toNat_takeTag_bytes] <;> omega
  · rw [hslot]
    obtain hi | rfl := Nat.lt_succ_iff_lt_or_eq.1 hi
    · rw [arrayRead_write_other _ _ (Nat.ne_of_lt hi), h.tags i hi]
    · exact arrayRead_write_same ..
  · rw [hslot, arrayRead_write_other _ _ (by omega), h.others i (by omega)]

end State.TagsRead

/-- The loop takes each tag of a frame that the slots can hold in two steps. -/
theorem exists_run_tagsRead {k : Nat} (hm : s.moves = []) (hs : s.state = StateCode.tagPeek)
    (hoff : s.off = 12#16) (hvlan : s.vlanInfo = ⟨0#16, 0#16⟩)
    (hframe : s.lenL.toNat ≤ s.config.maxFrameLen.toNat)
    (hlen : 12 + 4 * k ≤ s.lenL.toNat) (hk : k ≤ s.config.vlanMaxDepth.toNat)
    (htag : ∀ j, j < k → s.be16 (12 + 4 * j) = 0x8100#16) :
    ∃ t : State, core.run (2 * k) s = .next t ∧ s.TagsRead t k := by
  induction k with
  | zero => exact ⟨s, rfl, .zero hs hoff hvlan⟩
  | succ k ih =>
    obtain ⟨t, hrun, ht⟩ := ih (by omega) (by omega) fun j hj => htag j (by omega)
    have hcount := ht.count
    have hfree : t.vlanInfo.count ≠ t.config.vlanMaxDepth := fun hfull => by
      rw [hfull, ht.config] at hcount
      omega
    have hcode : t.be16 t.off.toNat = 0x8100#16 := by
      rw [ht.be16, ht.off, htag k (Nat.lt_succ_self k)]
    have hturn : core.run 2 t = .next t.takeTag :=
      run_takeTag (ht.moves.trans hm) ht.state (by rw [ht.off, ht.lenL]; omega)
        (by rwa [ht.lenL, ht.config]) hcode hfree
    exact ⟨t.takeTag, (run_add (M := core) 2 hrun).trans hturn, ht.takeTag hlen⟩

/-- Settles O51: `k` turns of the loop, then the peek that finds no tag. -/
theorem tagLoopResult : Obligations.TagLoopResult := by
  intro s k hm hs hoff hvlan hframe hk ⟨hlen, htag, hcode⟩
  obtain ⟨t, hrun, ht⟩ := exists_run_tagsRead hm hs hoff hvlan hframe (by omega) hk htag
  have hnext : step t = _ := (step_tagPeek (ht.moves.trans hm) ht.state).trans
    (execTagPeek_of_not_tag (by rw [ht.off, ht.lenL]; exact hlen) (by rwa [ht.lenL, ht.config])
      (by rwa [ht.be16, ht.off]))
  rw [ht.be16, ht.off] at hnext
  exact ⟨_, (run_add (M := core) 1 hrun).trans (run_succ (M := core) hnext 0), rfl,
    ht.count, ht.bytes, ht.off, rfl, ht.tags, ht.others, ht.status, ht.addrViews, ht.frameBuf⟩

end Sys2Proof.Machine
end

section
/-! SUPPORT, O55. With the reference units and no move given, each code of a parse is a bounded
number of steps away from its end (42_vlan_stack.md R166, 45_frame_fsm.md R248). -/

namespace Sys2Proof.Machine

variable {s t : State} {n : Nat}

/-! ### The block left to itself -/

/-- A sound state of a REFERENCE block with no move given (log 1). -/
structure State.Unattended (s : State) : Prop where
  /-- The state is sound. -/
  inv : s.Inv
  /-- The downstream units are the reference units. -/
  reference : s.dsUnit = .reference
  /-- No further step of the order is given. -/
  moves : s.moves = []

/-- From `s` the parse is over in at most `n` steps, with the latched length and the frame buffer as
they are. -/
def State.EndsWithin (s : State) (n : Nat) : Prop :=
  ∃ (k : Nat) (t : State), k ≤ n ∧ core.run k s = .next t ∧ t.Completed ∧
    t.lenL = s.lenL ∧ t.frameBuf = s.frameBuf

theorem engineStep_keeps (h : engineStep s = .next t) :
    t.dsUnit = s.dsUnit ∧ t.moves = s.moves ∧ t.lenL = s.lenL ∧ t.frameBuf = s.frameBuf := by
  obtain ⟨i, hi, he⟩ := exec_of_engineStep h
  obtain ⟨_, hspace, _⟩ := decodeState_hasWord (Decoded.instr?_eq_some.1 hi)
  obtain ⟨_, _, hlen, _, _, hunit, _, _, _, _, hbuf, _, _, hmoves, _⟩ := engineFrame i s t hspace he
  exact ⟨hunit, hmoves, hlen, hbuf⟩

theorem decodeDsClass_bit (c : DsClass) :
    decodeDsClass c.bit = .arpDecode ∨ decodeDsClass c.bit = .ipv4Decode := by
  cases c with
  | arp => exact .inl rfl
  | ipv4 => exact .inr rfl

/-- A reference unit that has a step answers, and writes no register of the block (45_frame_fsm.md
R246). -/
theorem downstreamStep_frame (hr : s.referenceEnabled = true) (h : downstreamStep s = .next t) :
    t = { s with
      ds := { s.ds with resp := t.ds.resp, ack := true }
      arp := t.arp, ip := t.ip, ipOpt := t.ipOpt, units := t.units } := by
  rw [downstreamStep_enabled hr] at h
  exact (downstreamFrame _ s t (decodeDsClass_bit _) h).1

theorem downstreamStep_keeps (h : downstreamStep s = .next t) :
    t.dsUnit = s.dsUnit ∧ t.moves = s.moves ∧ t.lenL = s.lenL ∧ t.frameBuf = s.frameBuf := by
  rcases exec_of_downstreamStep h with ⟨_, rfl⟩ | ⟨hr, _⟩
  · exact ⟨rfl, rfl, rfl, rfl⟩
  · rw [downstreamStep_frame hr h]
    exact ⟨rfl, rfl, rfl, rfl⟩

/-- A step leaves the block unattended, and keeps the latched length and the frame buffer. -/
theorem State.Unattended.next (h : s.Unattended) (he : step s = .next t) :
    t.Unattended ∧ t.lenL = s.lenL ∧ t.frameBuf = s.frameBuf := by
  have hkeeps : t.dsUnit = s.dsUnit ∧ t.moves = s.moves ∧ t.lenL = s.lenL ∧
      t.frameBuf = s.frameBuf := by
    rw [step_nil h.moves] at he
    split at he
    · exact engineStep_keeps he
    · exact downstreamStep_keeps he
  obtain ⟨hunit, hmoves, hlen, hbuf⟩ := hkeeps
  exact ⟨⟨stepKeepsInvariant s t h.inv he, hunit.trans h.reference, hmoves.trans h.moves⟩,
    hlen, hbuf⟩

/-! ### Ends, one step nearer at a time -/

theorem State.endsWithin_finish (s : State) (c : BitVec 4) (n : Nat) :
    (s.finish c).EndsWithin n :=
  ⟨0, _, Nat.zero_le n, rfl, ⟨rfl, rfl, rfl⟩, rfl, rfl⟩

theorem State.EndsWithin.mono {m : Nat} (h : s.EndsWithin m) (hmn : m ≤ n) : s.EndsWithin n := by
  obtain ⟨k, t, hk, hrun⟩ := h
  exact ⟨k, t, hk.trans hmn, hrun⟩

namespace State.Unattended

theorem endsWithin_succ (h : s.Unattended) (he : step s = .next t)
    (ht : t.Unattended → t.EndsWithin n) : s.EndsWithin (n + 1) := by
  obtain ⟨hun, hlen, hbuf⟩ := h.next he
  obtain ⟨k, u, hk, hrun, hdone, hlen', hbuf'⟩ := ht hun
  exact ⟨k + 1, u, Nat.succ_le_succ hk, (run_succ (M := core) he k).trans hrun, hdone,
    hlen'.trans hlen, hbuf'.trans hbuf⟩

theorem endsWithin_succ_of_finish {c : BitVec 4} (h : s.Unattended)
    (he : step s = .next (t.finish c)) : s.EndsWithin (n + 1) :=
  h.endsWithin_succ he fun _ => t.endsWithin_finish c n

/-- DS_WAIT on an answer takes it. -/
theorem endsWithin_dsWait_answered (h : s.Unattended) (hs : s.state = StateCode.dsWait)
    (hack : s.ds.ack = true) : s.EndsWithin 1 := by
  have hstep : step s = execDsWait s := by
    rw [step_nil h.moves, if_pos (engineEnabled_iff.2 ⟨hs ▸ nofun, fun _ => hack⟩)]
    exact engineStep_of_instr? (by rw [hs]; rfl)
  rcases execDsWait_cases s with ⟨hno, _⟩ | ⟨_, _, he⟩ | ⟨_, _, he⟩
  · rw [hack] at hno
    cases hno
  · exact h.endsWithin_succ_of_finish (hstep.trans he)
  · exact h.endsWithin_succ_of_finish (hstep.trans he)

/-- DS_WAIT without an answer gives the reference unit its step. -/
theorem endsWithin_dsWait (h : s.Unattended) (hs : s.state = StateCode.dsWait) :
    s.EndsWithin 2 := by
  cases hack : s.ds.ack with
  | true => exact (h.endsWithin_dsWait_answered hs hack).mono (by decide)
  | false =>
    have hidle : ¬ s.engineEnabled = true := fun he => by
      rw [(engineEnabled_iff.1 he).2 hs] at hack
      cases hack
    have hunit : s.referenceEnabled = true :=
      referenceEnabled_iff.2 ⟨h.reference, h.inv.request.2 hs, hack⟩
    obtain ⟨t, he⟩ := h.inv.answers_downstreamStep
    have hframe := downstreamStep_frame hunit he
    refine h.endsWithin_succ ((step_nil h.moves).trans ((if_neg hidle).trans he)) fun ht => ?_
    exact ht.endsWithin_dsWait_answered (by rw [hframe]; exact hs) (by rw [hframe])

theorem endsWithin_dispatch (h : s.Unattended) (hs : s.state = StateCode.dispatch) :
    s.EndsWithin 3 := by
  have hstep : step s = execDispatch s := step_of_stateCode h.moves hs (by decide) (by decide) rfl
  obtain ⟨t, he⟩ := h.inv.answers_execDispatch hs
  rcases execDispatch_next he with ⟨c, rfl⟩ | ⟨e, rfl⟩
  · exact h.endsWithin_succ (hstep.trans he) fun ht => ht.endsWithin_dsWait rfl
  · exact h.endsWithin_succ_of_finish (hstep.trans he)

theorem endsWithin_etypeLatch (h : s.Unattended) (hs : s.state = StateCode.etypeLatch) :
    s.EndsWithin 4 :=
  h.endsWithin_succ (step_of_stateCode h.moves hs (by decide) (by decide) rfl) fun ht =>
    ht.endsWithin_dispatch rfl

/-- TAG_PEEK goes on to TAG_READ at the same cursor, to ETYPE_LATCH, or to the end. -/
theorem endsWithin_tagPeek_of_tagRead (h : s.Unattended) (hs : s.state = StateCode.tagPeek)
    (hn : 4 ≤ n) (hread : s.peekTag.Unattended → s.peekTag.EndsWithin n) :
    s.EndsWithin (n + 1) := by
  have hstep := step_tagPeek h.moves hs
  have hframe := h.inv.frame
  rcases execTagPeek_cases s with ⟨_, he⟩ | ⟨_, _, _⟩ | ⟨_, _, _, he⟩ | ⟨_, _, _, he⟩
  · exact h.endsWithin_succ_of_finish (hstep.trans he)
  · omega
  · exact h.endsWithin_succ (hstep.trans he) hread
  · exact h.endsWithin_succ (hstep.trans he) fun ht => (ht.endsWithin_etypeLatch rfl).mono hn

/-- TAG_READ goes on to TAG_PEEK behind a tag that lies in the frame, or to the end. -/
theorem endsWithin_tagRead_of_tagPeek (h : s.Unattended) (hs : s.state = StateCode.tagRead)
    (hpeek : s.off.toNat + 4 ≤ s.lenL.toNat → ∀ v : Half,
      (s.pushTag v).Unattended → (s.pushTag v).EndsWithin n) : s.EndsWithin (n + 1) := by
  have hstep := step_tagRead h.moves hs
  have hframe := h.inv.frame
  rcases execTagRead_cases s with ⟨_, he⟩ | ⟨_, _, he⟩ | ⟨_, _, _, _⟩ | ⟨hin, _, _, he⟩
  · exact h.endsWithin_succ_of_finish (hstep.trans he)
  · exact h.endsWithin_succ_of_finish (hstep.trans he)
  · omega
  · exact h.endsWithin_succ (hstep.trans he) (hpeek hin _)

/-- Each turn of the loop moves the cursor past four bytes of the frame (42_vlan_stack.md R166). -/
theorem endsWithin_tagRead (h : s.Unattended) (hs : s.state = StateCode.tagRead)
    (hn : s.lenL.toNat < s.off.toNat + 4 * (n + 1)) : s.EndsWithin (2 * n + 4) := by
  induction n generalizing s with
  | zero => exact h.endsWithin_tagRead_of_tagPeek hs fun hin => absurd hn (by omega)
  | succ n ih =>
    refine h.endsWithin_tagRead_of_tagPeek hs fun hin v ht => ?_
    have hlen := s.lenL.isLt
    have hoff := toNat_pushTag_off (s := s) (by omega) v
    refine ht.endsWithin_tagPeek_of_tagRead rfl (by omega) fun hu => ih hu rfl ?_
    change s.lenL.toNat < (s.pushTag v).off.toNat + 4 * (n + 1)
    omega

theorem endsWithin_tagPeek (h : s.Unattended) (hs : s.state = StateCode.tagPeek)
    (hn : s.lenL.toNat < s.off.toNat + 4 * (n + 1)) : s.EndsWithin (2 * n + 5) :=
  h.endsWithin_tagPeek_of_tagRead hs (by omega) fun ht => ht.endsWithin_tagRead rfl hn

theorem endsWithin_ethAddr (h : s.Unattended) (hs : s.state = StateCode.ethAddr)
    (hn : s.lenL.toNat < 12 + 4 * (n + 1)) : s.EndsWithin (2 * n + 6) := by
  have hstep : step s = execEthAddr s := step_of_stateCode h.moves hs (by decide) (by decide) rfl
  rcases execEthAddr_cases s with ⟨_, he⟩ | ⟨_, he⟩
  · exact h.endsWithin_succ_of_finish (hstep.trans he)
  · exact h.endsWithin_succ (hstep.trans he) fun ht => ht.endsWithin_tagPeek rfl hn

end State.Unattended

/-- Settles O55: each code's own bound is within that of ETH_ADDR, as the cursor of the loop is 12 or
more. -/
theorem everyParseEnds : Obligations.EveryParseEnds := by
  intro s hinv hunit hmoves hbusy
  have h : s.Unattended := ⟨hinv, hunit, hmoves⟩
  have hn {a : Nat} (ha : 12 ≤ a) : s.lenL.toNat < a + 4 * ((s.lenL.toNat - 12) / 4 + 1) := by omega
  change s.EndsWithin (2 * ((s.lenL.toNat - 12) / 4) + 6)
  rcases engineStep_cases s with ⟨hs, _⟩ | ⟨hs, _⟩ | ⟨hs, _⟩ | ⟨hs, _⟩ | ⟨hs, _⟩ | ⟨hs, _⟩ |
    ⟨hs, _⟩ | ⟨hs, _⟩
  · exact absurd hs hbusy
  · exact h.endsWithin_ethAddr hs (hn (Nat.le_refl 12))
  · have hoff := hinv.atTagPeek hs
    exact (h.endsWithin_tagPeek hs (hn (by omega))).mono (by omega)
  · obtain ⟨hoff, _⟩ := hinv.atTagRead hs
    exact (h.endsWithin_tagRead hs (hn (by omega))).mono (by omega)
  · exact (h.endsWithin_etypeLatch hs).mono (by omega)
  · exact (h.endsWithin_dispatch hs).mono (by omega)
  · exact (h.endsWithin_dsWait hs).mono (by omega)
  · exact absurd hinv.stateCode (Nat.not_le_of_lt hs)

end Sys2Proof.Machine
end

section
/-! SUPPORT and O21. The result windows across every step: only the two decode instructions, an
EXTERNAL unit's step and reset can change one (43_arp_reference.md R191, 45_frame_fsm.md R247). -/

namespace Sys2Proof.Machine

variable {s t : State}

/-! ### Steps that fetch no instruction -/

/-- `t` has the result windows and the option slots of `s`. -/
def State.SameWindows (s t : State) : Prop := t.arp = s.arp ∧ t.ip = s.ip ∧ t.ipOpt = s.ipOpt

/-- A host access other than a command word leaves the windows. -/
theorem sameWindows_of_hostAccess {a : HostAccess} (ha : a.instr? = none)
    (h : hostAccess a s = .next t) : s.SameWindows t := by
  rcases hostAccess_cases h with ⟨_, rfl⟩ | rfl | ⟨_, rfl⟩ | ⟨_, rfl, _⟩ | ⟨_, _, _, _, _, rfl⟩
  · exact ⟨rfl, rfl, rfl⟩
  · exact ⟨rfl, rfl, rfl⟩
  · exact ⟨rfl, rfl, rfl⟩
  · cases ha
  · exact ⟨rfl, rfl, rfl⟩

/-- With no instruction fetched, only an EXTERNAL unit's step and reset can change a window. -/
theorem step_of_not_fetched? (hf : s.fetched? = none) (h : step s = .next t) :
    (∃ (x : ExternalAnswer) (rest : List Move),
      s.moves = .external x :: rest ∧ externalStep x (s.setMoves rest) = .next t) ∨
    (∃ rest : List Move, s.moves = .reset :: rest) ∨ s.SameWindows t := by
  unfold State.fetched? at hf
  cases hm : s.moves with
  | nil =>
    rw [step_nil hm] at h
    rw [hm] at hf
    cases he : s.engineEnabled with
    | true =>
      obtain ⟨i, hi, _⟩ := exec_of_engineStep (by simpa [he] using h)
      simp [he, hi] at hf
    | false =>
      rcases exec_of_downstreamStep (by simpa [he] using h) with ⟨_, rfl⟩ | ⟨hr, _⟩
      · exact .inr (.inr ⟨rfl, rfl, rfl⟩)
      · simp [he, hr] at hf
  | cons m rest =>
    rw [step_cons hm] at h
    rw [hm] at hf
    cases m with
    | host a => exact .inr (.inr (sameWindows_of_hostAccess (s := s.setMoves rest) hf h))
    | engine =>
      obtain ⟨i, hi, _⟩ := exec_of_engineStep h
      exact absurd (hf.symm.trans hi) nofun
    | downstream =>
      rcases exec_of_downstreamStep h with ⟨_, rfl⟩ | ⟨hr, _⟩
      · exact .inr (.inr ⟨rfl, rfl, rfl⟩)
      · exact absurd (hf.symm.trans (if_pos hr)) nofun
    | external x => exact .inl ⟨x, rest, rfl, h⟩
    | reset => exact .inr (.inl ⟨rest, rfl⟩)
    | classify | selectWidths | optionByte => cases hf

/-! ### Steps that fetch a decode instruction -/

/-- What a host access presents is a CTRL word (30_encoding.md R115). -/
theorem space_of_instr? {a : HostAccess} {i : Instr} (h : a.instr? = some i) :
    i.space = .ctrlWord := by
  cases a with
  | regWrite off width value =>
    obtain ⟨_, rfl⟩ : (width = .word ∧ off = Reg.ctrl.offset) ∧ decodeCtrl value = i := by
      simpa [HostAccess.instr?] using h
    obtain ⟨_, hspace, _⟩ := decodeCtrl_hasWord value
    exact hspace
  | regRead | bufRead | bufWrite => cases h

/-- A decode instruction is fetched only for an enabled reference unit (45_frame_fsm.md R246): every
other agent's word is of another space. -/
theorem referenceEnabled_of_fetched? {i : Instr} (hi : i.space = .dsClass)
    (h : s.fetched? = some i) : s.referenceEnabled = true := by
  have hother {j : Instr} {sp : Space} {w : Word} (hj : j.HasWord sp w) (hsp : sp ≠ .dsClass) :
      some j ≠ some i := by
    rintro ⟨⟩
    obtain ⟨_, hspace, _⟩ := hj
    exact hsp (hspace.symm.trans hi)
  have hengine : (decodeState s.state).instr? ≠ some i := fun hd =>
    hother (decodeState_hasWord (Decoded.instr?_eq_some.1 hd)) nofun rfl
  unfold State.fetched? at h
  cases hm : s.moves with
  | nil =>
    cases he : s.engineEnabled with
    | true => exact absurd (by simpa [hm, he] using h) hengine
    | false =>
      obtain ⟨hr, _⟩ : s.referenceEnabled = true ∧ decodeDsClass s.ds.cls.bit = i := by
        simpa [hm, he] using h
      exact hr
  | cons m rest =>
    rw [hm] at h
    cases m with
    | host a => exact absurd ((space_of_instr? h).symm.trans hi) nofun
    | engine => exact absurd h hengine
    | downstream =>
      obtain ⟨hr, _⟩ : s.referenceEnabled = true ∧ decodeDsClass s.ds.cls.bit = i := by
        simpa using h
      exact hr
    | external | reset => cases h
    | classify c => exact absurd h (hother (decodeEtherType_hasWord c) nofun)
    | selectWidths f => exact absurd h (hother (decodeArpProto_hasWord f) nofun)
    | optionByte b => exact absurd h (hother (decodeOptType_hasWord b) nofun)

/-! ### The writers of the windows among the instructions -/

theorem sameWindows_of_startCommand {m : ParseMode} (h : startCommand m s = .next t) :
    s.SameWindows t := by
  rcases startCommand_cases m s with ⟨_, he⟩ | ⟨_, _, _, he⟩ | ⟨_, _, _, he⟩ <;>
    cases he.symm.trans h <;> exact ⟨rfl, rfl, rfl⟩

/-- Only a unit's decode writes a window: no operation of the engine does, no command, an accepted START
included, and no combinational row. -/
theorem sameWindows_of_exec {i : Instr} (hi : i.space ≠ .dsClass) (h : exec i s = .next t) :
    s.SameWindows t := by
  cases hspace : i.space with
  | stateCode =>
    obtain ⟨_, _, _, _, _, _, harp, hip, hopt, _⟩ := engineFrame i s t hspace h
    exact ⟨harp, hip, hopt⟩
  | ctrlWord =>
    cases i with
    | setMode => cases h; exact ⟨rfl, rfl, rfl⟩
    | startAuto | startExpectArp | startExpectIpv4 | startReserved =>
      exact sameWindows_of_startCommand h
    | _ => cases hspace
  | dsClass => exact absurd hspace hi
  | etherType | arpProto | optType =>
    rw [exec_combinational_frame (by simp [hspace]) h]
    exact ⟨rfl, rfl, rfl⟩

/-- The one instruction that writes the ARP window is an ARP_DECODE that answers OK. -/
theorem arpDecode_of_exec {i : Instr} (h : exec i s = .next t) (hne : t.arp ≠ s.arp) :
    i = .arpDecode ∧ t.ds.ack = true ∧ t.ds.resp = okCode := by
  by_cases hi : i.space = .dsClass
  · cases i with
    | arpDecode =>
      rcases execArpDecode_next h with ⟨_, _, _, rfl⟩ | ⟨_, _, rfl⟩
      · exact absurd rfl hne
      · exact ⟨rfl, rfl, rfl⟩
    | ipv4Decode =>
      rcases execIpv4Decode_next h with ⟨_, _, _, rfl⟩ | ⟨_, _, _, rfl⟩ <;> exact absurd rfl hne
    | _ => cases hi
  · exact absurd (sameWindows_of_exec hi h).1 hne

/-- An EXTERNAL unit writes the ARP window with OK to an ARP request for which it draws one (log 6,
log 17). -/
theorem arp_drawn_of_externalStep {x : ExternalAnswer} (h : externalStep x s = .next t)
    (hne : t.arp ≠ s.arp) :
    s.dsUnit = .external ∧ s.ds.cls = .arp ∧ x.arp ≠ none ∧ x.resp = okCode := by
  rcases externalStep_cases x s with ⟨_, he⟩ | ⟨⟨hunit, _⟩, ⟨_, he⟩ | ⟨_, _, he⟩ | ⟨hok, he⟩⟩ <;>
    cases he.symm.trans h
  · exact absurd rfl hne
  · exact absurd rfl hne
  · rw [State.answer_arp] at hne
    rcases s.writeDrawn_cases x with ⟨hcls, hw⟩ | ⟨_, hw⟩ <;> rw [hw] at hne
    · exact ⟨hunit, hcls, fun hnone => hne (by rw [hnone]; rfl), hok⟩
    · exact absurd rfl hne

/-- Settles O21: a step that changes the window runs an ARP_DECODE that answers OK, or fetches no
instruction and is an EXTERNAL unit's or reset. -/
theorem arpWindowWriters : Obligations.ArpWindowWriters := by
  intro s t h hne
  cases hf : s.fetched? with
  | some i =>
    rw [step_of_fetched? hf] at h
    obtain ⟨rfl, hack, hresp⟩ := arpDecode_of_exec h hne
    obtain ⟨hunit, _⟩ := State.referenceEnabled_iff.1 (referenceEnabled_of_fetched? rfl hf)
    exact .inl ⟨rfl, hunit, hack, hresp⟩
  | none =>
    rcases step_of_not_fetched? hf h with ⟨x, rest, hm, he⟩ | hreset | ⟨harp, _⟩
    · obtain ⟨hunit, hcls, hdrawn, hok⟩ := arp_drawn_of_externalStep he hne
      exact .inr (.inl ⟨hunit, hcls, x, rest, hm, hdrawn, hok⟩)
    · exact .inr (.inr hreset)
    · exact absurd harp hne

end Sys2Proof.Machine
end

section
/-! SUPPORT, O19, O20 and O22. The reference ARP unit: the widths a proto_fmt selects, and the window of
an OK, as values and as register words (43_arp_reference.md R180 to R183, R190). -/

namespace Sys2Proof.Machine

variable {s : State}

/-! ### The widths -/

/-- HW_W is always 6; PR_W depends on proto_fmt alone (43_arp_reference.md R182, R186). -/
theorem arpWidths_eq (f : Half) : arpWidths f = ⟨6, if f = 0x0800#16 then 4 else 6⟩ := by
  unfold arpWidths
  split <;> rfl

/-- Settles O20: each row answers the widths of the selection. -/
theorem arpBodySelectsWidths : Obligations.ArpBodySelectsWidths := by
  refine fun s => ⟨exec_arpBodyIpv4 s, fun f hf => ?_, fun f => exec_decodeArpProto f s⟩
  rw [exec_arpBodyOther, arpWidths_eq, if_neg hf]
  rfl

/-- The length in the terms of R180. -/
theorem arpLength_mk (hw pr : Nat) : arpLength ⟨hw, pr⟩ = 8 + 2 * hw + 2 * pr := rfl

/-! ### The views -/

theorem toNat_view_off {off : Nat} (len : Nat) (h : off < 65536) : (view off len).off.toNat = off :=
  toNat_half h

theorem toNat_view_len (off : Nat) {len : Nat} (h : len < 256) : (view off len).len.toNat = len :=
  Nat.mod_eq_of_lt h

/-- The four views of an input that 16-bit offsets reach, as natural numbers (43_arp_reference.md
R183). -/
theorem toNat_arpWindowOf_views {p : Nat} {w : AddrWidths} {v : ArpWindow}
    (hv : v = arpWindowOf s p w) (hend : p + arpLength w < 65536) (hhw : w.hw < 256)
    (hpr : w.pr < 256) :
    v.sha.off.toNat = p + 8 ∧ v.sha.len.toNat = w.hw ∧
    v.spa.off.toNat = p + 8 + w.hw ∧ v.spa.len.toNat = w.pr ∧
    v.tha.off.toNat = p + 8 + w.hw + w.pr ∧ v.tha.len.toNat = w.hw ∧
    v.tpa.off.toNat = p + 8 + 2 * w.hw + w.pr ∧ v.tpa.len.toNat = w.pr := by
  subst hv
  unfold arpLength at hend
  exact ⟨toNat_view_off _ (by omega), toNat_view_len _ hhw, toNat_view_off _ (by omega),
    toNat_view_len _ hpr, toNat_view_off _ (by omega), toNat_view_len _ hhw,
    toNat_view_off _ (by omega), toNat_view_len _ hpr⟩

/-! ### The outcomes of ARP_DECODE -/

/-- Settles O19: the two checks in their order, then the window, whose views lie in the input. -/
theorem arpDecodeResult : Obligations.ArpDecodeResult := by
  rintro s p r hw pr rfl rfl hin rfl hpr
  have hmax := half_lt s.config.maxFrameLen
  have hpr6 : pr ≤ 6 := by rw [hpr]; split <;> decide
  have hcases := execArpDecode_cases s
  rw [arpWidths_eq, ← hpr, arpLength_mk] at hcases
  rcases hcases with ⟨hr, he⟩ | ⟨_, hout, _⟩ | ⟨h8, _, hr, he⟩ | ⟨h8, _, hr, he⟩
  · exact ⟨fun _ => he, fun _ => by omega, fun _ => by omega⟩
  · omega
  · exact ⟨fun _ => by omega, fun _ _ => ⟨_, he, rfl⟩, fun _ => by omega⟩
  · refine ⟨fun _ => by omega, fun _ _ => by omega, fun _ => ⟨_, he, rfl, rfl, rfl, rfl, rfl, rfl,
      toNat_arpWindowOf_views (w := ⟨6, pr⟩) rfl ?_ (show 6 < 256 by decide)
        (show pr < 256 by omega)⟩⟩
    rw [arpLength_mk]
    omega

/-- Settles O22: the window of the OK, read word by word. -/
theorem arpWindowWords : Obligations.ArpWindowWords := by
  rintro s t p pr rfl hpr h hok
  have hcases := execArpDecode_cases s
  rw [arpWidths_eq, ← hpr] at hcases
  rcases hcases with ⟨_, he⟩ | ⟨_, _, he⟩ | ⟨_, _, _, he⟩ | ⟨_, _, _, he⟩ <;> cases he.symm.trans h
  · cases hok
  · cases hok
  · exact ⟨rfl, rfl, rfl, rfl, rfl, rfl⟩

end Sys2Proof.Machine
end

section
/-! SUPPORT, O25 and O26. The option walk: what its turns do, that it ends, and that it finds the option
list of the rules exactly when the region holds one (44_ipv4_reference.md R208 to R210). -/

namespace Sys2Proof.Machine

variable {rd : Nat → Byte} {w : OptWalk}

/-! ### A walk that is over, and the turns of one that is not -/

theorem OptWalk.close_of_walking (h : w.status = .walking) : w.close = { w with status := .ended } :=
  if_pos h

theorem OptWalk.close_of_over (h : w.status ≠ .walking) : w.close = w := if_neg h

/-- At its end a region closes the walk as EOL does (44_ipv4_reference.md R208, R209). -/
theorem walkEol_eq_close (w : OptWalk) : walkEol w = w.close := by
  unfold walkEol
  split
  · rename_i hlive
    exact (OptWalk.close_of_walking (OptWalk.live_iff.1 hlive).1).symm
  · rfl

theorem OptWalk.live_eq_false (h : w.status ≠ .walking ∨ w.e ≤ w.q) : w.live = false :=
  Bool.eq_false_iff.2 fun hlive => by
    obtain ⟨hw, hq⟩ := OptWalk.live_iff.1 hlive
    exact h.elim (· hw) (by omega)

theorem walkOptions_over (h : w.status ≠ .walking) : ∀ n : Nat, walkOptions rd n w = w
  | 0 => rfl
  | n + 1 => by
    rw [walkOptions_succ, OptWalk.live_eq_false (.inl h)]
    exact OptWalk.close_of_over h

/-- The entry that stands at `q` (44_ipv4_reference.md R208, 30_encoding.md R114). -/
def optEntryAt (rd : Nat → Byte) (q : Nat) : OptEntry :=
  ⟨(rd q).extractLsb' 7 1, (rd q).extractLsb' 5 2, (rd q).extractLsb' 0 5, rd (q + 1), half (q + 2)⟩

/-- The walk past the entry at `q`: what a turn leaves of a walk at an entry that fits
(44_ipv4_reference.md R210). -/
def OptWalk.push (rd : Nat → Byte) (w : OptWalk) : OptWalk :=
  { w with q := w.q + (rd (w.q + 1)).toNat, opts := w.opts ++ [optEntryAt rd w.q] }

/-- An entry takes at least one turn's fuel of the region. -/
theorem OptWalk.push_region_lt {n : Nat} (hn : w.e - w.q < n + 1) (hq : w.q < w.e)
    (hmin : 2 ≤ (rd (w.q + 1)).toNat) : (w.push rd).e - (w.push rd).q < n := by
  change w.e - (w.q + (rd (w.q + 1)).toNat) < n
  omega

/-- Everything `n + 1` turns of a walk that goes on can do (44_ipv4_reference.md R208 to R210). -/
theorem walkOptions_succ_cases (rd : Nat → Byte) (n : Nat) (hw : w.status = .walking) :
    (w.e ≤ w.q ∨ w.q < w.e ∧ (rd w.q).extractLsb' 0 5 = 0#5) ∧
      walkOptions rd (n + 1) w = { w with status := .ended } ∨
    (w.q < w.e ∧ (rd w.q).extractLsb' 0 5 ≠ 0#5) ∧
      (w.e < w.q + 2 ∨ (rd (w.q + 1)).toNat < 2 ∨ w.e < w.q + (rd (w.q + 1)).toNat) ∧
      walkOptions rd (n + 1) w = { w with status := .invalid } ∨
    (w.q < w.e ∧ (rd w.q).extractLsb' 0 5 ≠ 0#5) ∧
      (2 ≤ (rd (w.q + 1)).toNat ∧ w.q + (rd (w.q + 1)).toNat ≤ w.e) ∧
      walkOptions rd (n + 1) w = walkOptions rd n (w.push rd) := by
  rw [walkOptions_succ]
  by_cases hq : w.q < w.e
  · have hlive : w.live = true := OptWalk.live_iff.2 ⟨hw, hq⟩
    rw [if_pos hlive]
    rcases walkTurn_cases (rd := rd) (t := rd w.q) hlive with
      ⟨heol, ht⟩ | ⟨hn, hbad, ht⟩ | ⟨hn, _, hmin, hmax, ht⟩ <;> rw [ht]
    · exact .inl ⟨.inr ⟨hq, heol⟩, walkOptions_over (by simp) n⟩
    · exact .inr (.inl ⟨⟨hq, hn⟩, hbad, walkOptions_over (by simp) n⟩)
    · exact .inr (.inr ⟨⟨hq, hn⟩, ⟨hmin, hmax⟩, rfl⟩)
  · rw [OptWalk.live_eq_false (.inr (Nat.le_of_not_lt hq))]
    exact .inl ⟨.inl (Nat.le_of_not_lt hq), OptWalk.close_of_walking hw⟩

/-- Enough turns end the walk: each one ends it or moves `q` by at least 2 inside the region. -/
theorem walkOptions_status_ne_walking : ∀ (n : Nat) {w : OptWalk}, w.status = .walking →
    w.e - w.q < n → (walkOptions rd n w).status ≠ .walking
  | 0, _, _, hn => absurd hn (Nat.not_lt_zero _)
  | n + 1, w, hw, hn => by
    rcases walkOptions_succ_cases rd n hw with ⟨_, h⟩ | ⟨_, _, h⟩ | ⟨⟨hq, _⟩, ⟨hmin, _⟩, h⟩ <;> rw [h]
    · simp
    · simp
    · exact walkOptions_status_ne_walking n hw (OptWalk.push_region_lt hn hq hmin)

/-! ### The walk and the option list of the rules -/

/-- At the region's end and at EOL the list is empty. -/
theorem OptionList.eq_nil {e q : Nat} {opts : List OptEntry} (h : OptionList rd e q opts)
    (hq : e ≤ q ∨ q < e ∧ (rd q).extractLsb' 0 5 = 0#5) : opts = [] := by
  cases h with
  | atEnd => rfl
  | eol => rfl
  | entry hlt hn => exact absurd hq (by simp [hlt, hn])

/-- At any other type byte the list has an entry that lies in the region. -/
theorem OptionList.exists_entry {e q : Nat} {opts : List OptEntry} (h : OptionList rd e q opts)
    (hq : q < e ∧ (rd q).extractLsb' 0 5 ≠ 0#5) :
    2 ≤ (rd (q + 1)).toNat ∧ q + (rd (q + 1)).toNat ≤ e ∧ ∃ rest : List OptEntry,
      opts = optEntryAt rd q :: rest ∧ OptionList rd e (q + (rd (q + 1)).toNat) rest := by
  obtain ⟨hlt, hn⟩ := hq
  cases h with
  | atEnd hend => omega
  | eol _ heol => exact absurd heol hn
  | entry _ _ hmin hmax hrest => exact ⟨hmin, hmax, _, rfl, hrest⟩

/-- Enough turns of the walk append the entries of a well-formed option list. -/
theorem walkOptions_of_optionList : ∀ (n : Nat) {w : OptWalk} {opts : List OptEntry},
    w.status = .walking → w.e - w.q < n → OptionList rd w.e w.q opts →
    (walkOptions rd n w).status = .ended ∧ (walkOptions rd n w).opts = w.opts ++ opts
  | 0, _, _, _, hn, _ => absurd hn (Nat.not_lt_zero _)
  | n + 1, w, opts, hw, hn, hlist => by
    rcases walkOptions_succ_cases rd n hw with ⟨hq, h⟩ | ⟨hq, hbad, h⟩ | ⟨hq, ⟨hmin, _⟩, h⟩
    · rw [h, hlist.eq_nil hq]
      exact ⟨rfl, (List.append_nil w.opts).symm⟩
    · obtain ⟨hmin, hmax, _⟩ := hlist.exists_entry hq
      omega
    · obtain ⟨_, _, rest, rfl, hrest⟩ := hlist.exists_entry hq
      have hfuel := OptWalk.push_region_lt hn hq.1 hmin
      rw [h, List.append_cons]
      exact walkOptions_of_optionList (w := w.push rd) n hw hfuel hrest

/-- A walk that ends has found a well-formed option list. -/
theorem exists_optionList_of_walkOptions_ended : ∀ (n : Nat) {w : OptWalk}, w.status = .walking →
    (walkOptions rd n w).status = .ended → ∃ opts : List OptEntry, OptionList rd w.e w.q opts
  | 0, _, hw, hend => nomatch hw.symm.trans hend
  | n + 1, w, hw, hend => by
    rcases walkOptions_succ_cases rd n hw with ⟨hq | ⟨hq, heol⟩, _⟩ | ⟨_, _, h⟩ |
      ⟨⟨hq, hn⟩, ⟨hmin, hmax⟩, h⟩
    · exact ⟨[], .atEnd hq⟩
    · exact ⟨[], .eol hq heol⟩
    · cases hend.symm.trans (congrArg OptWalk.status h)
    · rw [h] at hend
      obtain ⟨rest, hrest⟩ := exists_optionList_of_walkOptions_ended (w := w.push rd) n hw hend
      exact ⟨_, .entry hq hn hmin hmax hrest⟩

/-! ### The walk of a header's options region (44_ipv4_reference.md R206) -/

/-- The fuel of `walkRegion` suffices for every header length. -/
theorem walkRegion_status_ne_walking (rd : Nat → Byte) (p ihl : Nat) :
    (walkRegion rd p ihl).status ≠ .walking :=
  walkOptions_status_ne_walking _ rfl (by dsimp only; omega)

theorem walkRegion_of_optionList {p ihl : Nat} {opts : List OptEntry}
    (h : OptionList rd (p + 4 * ihl) (p + 20) opts) :
    (walkRegion rd p ihl).status = .ended ∧ (walkRegion rd p ihl).opts = opts :=
  walkOptions_of_optionList _ rfl (by dsimp only; omega) h

theorem walkRegion_invalid_of_no_optionList {p ihl : Nat}
    (h : ¬∃ opts : List OptEntry, OptionList rd (p + 4 * ihl) (p + 20) opts) :
    (walkRegion rd p ihl).status = .invalid := by
  cases hs : (walkRegion rd p ihl).status with
  | walking => exact absurd hs (walkRegion_status_ne_walking rd p ihl)
  | ended => exact absurd (exists_optionList_of_walkOptions_ended _ rfl hs) h
  | invalid => rfl

/-- Settles O25: the fuel suffices, and every entry takes two bytes or more of the region. -/
theorem optionWalkEndsWithinTwentyEntries : Obligations.OptionWalkEndsWithinTwentyEntries :=
  fun rd p _ h15 => ⟨walkRegion_status_ne_walking rd p _, length_opts_walkRegion_le rd p h15⟩

/-! ### The option rows (44_ipv4_reference.md R208 to R210) -/

variable {copy : BitVec 1} {cls : BitVec 2} {number : BitVec 5}

/-- OPT_EOL closes the walk, at an entry and at the region's end alike. -/
theorem exec_optEol_eq_close (s : State) :
    exec (.optEol copy cls) s = .next (s.setWalk s.units.walk.close) := by
  rw [exec_optEol, execOptEol, walkTurn, if_pos (optTypeByte_number ..), walkEol_eq_close]

/-- OPT_TLV is a turn of a walk whose region lies in the buffer. -/
theorem exec_optTlv_eq_walkTurn (s : State) (he : s.units.walk.e ≤ s.config.maxFrameLen.toNat) :
    exec (.optTlv copy cls number) s =
      .next (s.setWalk (walkTurn s.bufByte (optTypeByte copy cls number) s.units.walk)) :=
  if_neg (Nat.not_lt_of_le he)

/-- Settles O26: by the cases of a turn; the hypotheses of each clause exclude the other cases. -/
theorem optionRowsTurnTheWalk : Obligations.OptionRowsTurnTheWalk := by
  rintro s w copy cls number rfl hnumber he
  rw [exec_optEol_eq_close, exec_optTlv_eq_walkTurn s he]
  have hturn := @walkTurn_cases s.bufByte (optTypeByte copy cls number) s.units.walk
  rw [optTypeByte_number, optTypeByte_cls, optTypeByte_copy] at hturn
  refine ⟨fun hw => ?_, fun hw => ?_, fun hw hq => ?_, fun hw hq hbad => ?_,
    fun hw hq hmin hmax => ?_⟩
  · rw [OptWalk.close_of_walking hw]
    rfl
  · rw [walkTurn_not_live (OptWalk.live_eq_false (.inl hw)), OptWalk.close_of_over hw]
    exact ⟨rfl, rfl⟩
  · rw [walkTurn_not_live (OptWalk.live_eq_false (.inr hq)), OptWalk.close_of_walking hw]
    rfl
  · rcases hturn (OptWalk.live_iff.2 ⟨hw, hq⟩) with ⟨h0, _⟩ | ⟨_, _, h⟩ | ⟨_, hfit, hmin, hmax, _⟩
    · exact absurd h0 hnumber
    · rw [h]
      rfl
    · omega
  · rcases hturn (OptWalk.live_iff.2 ⟨hw, by omega⟩) with ⟨h0, _⟩ | ⟨_, hbad, _⟩ | ⟨_, _, _, _, h⟩
    · exact absurd h0 hnumber
    · omega
    · rw [h, hw]
      rfl

end Sys2Proof.Machine
end

section
/-! SUPPORT, O23, O24, O27, O28 and O29. The reference IPv4 unit: the outcomes of its checks, the window
and the slots of an OK, and who writes them (44_ipv4_reference.md R200 to R217). -/

namespace Sys2Proof.Machine

variable {s t : State}

/-! ### The option slots -/

/-- Slots from `j` on hold the entries, and the slots behind them keep their values. -/
theorem arrayRead_writeSlots : ∀ (os : List OptEntry) (j k : Nat) (f : List (Nat × Word)),
    arrayRead (writeSlots os j f) (j + k) =
      (os[k]?.map OptEntry.word).getD (arrayRead f (j + k))
  | [], _, _, _ => rfl
  | o :: os, j, 0, f => by
    rw [writeSlots, arrayRead_writeSlots_below os (j + 1) (j + 0) _ (Nat.lt_succ_self j)]
    exact arrayRead_write_same f j o.word
  | o :: os, j, k + 1, f => by
    rw [writeSlots, show j + (k + 1) = j + 1 + k by omega, arrayRead_writeSlots os (j + 1) k,
      arrayRead_write_other f o.word (by omega)]
    rfl

theorem arrayRead_writeSlots_entry (os : List OptEntry) (f : List (Nat × Word)) {j : Nat}
    (h : j < os.length) : arrayRead (writeSlots os 0 f) j = os[j].word := by
  simpa [h] using arrayRead_writeSlots os 0 j f

theorem arrayRead_writeSlots_behind (os : List OptEntry) (f : List (Nat × Word)) {j : Nat}
    (h : os.length ≤ j) : arrayRead (writeSlots os 0 f) j = arrayRead f j := by
  simpa [h] using arrayRead_writeSlots os 0 j f

/-! ### The outcomes of IPV4_DECODE -/

/-- Settles O23: the cases of IPV4_DECODE in the order of its checks. -/
theorem ipv4HeaderChecks : Obligations.Ipv4HeaderChecks := by
  rintro s p r n rfl rfl hn hin
  obtain rfl : n = (ipIhl s s.ds.base.toNat).toNat := hn
  rcases execIpv4Decode_cases s with ⟨hr, he⟩ | ⟨_, hout, _⟩ | ⟨h20, _, hbad, he⟩ |
    ⟨h20, _, h5, hr, _, he⟩ | ⟨h20, _, h5, hr, _, he⟩
  · exact ⟨fun _ => he, fun _ => by omega, fun _ => by omega⟩
  · omega
  · exact ⟨fun _ => by omega, fun _ _ => he, fun _ => by omega⟩
  · exact ⟨fun _ => by omega, fun _ _ => by omega, fun _ _ _ => ⟨_, he, nofun, nofun⟩⟩
  · exact ⟨fun _ => by omega, fun _ _ => by omega, fun _ _ _ => ⟨_, he, nofun, nofun⟩⟩

section
variable (h20 : 20 ≤ s.ds.len.toNat)
  (hin : s.ds.base.toNat + s.ds.len.toNat ≤ s.config.maxFrameLen.toNat)
  (h5 : 5 ≤ (ipIhl s s.ds.base.toNat).toNat)
  (hr : 4 * (ipIhl s s.ds.base.toNat).toNat ≤ s.ds.len.toNat)
include h20 hin h5 hr

/-- Past the header checks the option walk decides the answer (44_ipv4_reference.md R206 to R217). -/
theorem execIpv4Decode_of_header :
    execIpv4Decode s = .next (if s.ipWalk.status = .invalid then
      (s.setWalk s.ipWalk).answer ErrorKind.invalidOptions.code
    else ((s.setWalk s.ipWalk).setIp (ipWindowOf s s.ds.base.toNat s.ipWalk.opts)
      (writeSlots s.ipWalk.opts 0 s.ipOpt)).answer okCode) := by
  rcases execIpv4Decode_cases s with ⟨_, _⟩ | ⟨_, _, _⟩ | ⟨_, _, _, _⟩ | ⟨_, _, _, _, hbad, he⟩ |
    ⟨_, _, _, _, hgood, he⟩
  · omega
  · omega
  · omega
  · rw [he, if_pos hbad]
  · rw [he, if_neg hgood]

theorem execIpv4Decode_of_optionList {opts : List OptEntry}
    (hlist : OptionList s.bufByte (s.ds.base.toNat + 4 * (ipIhl s s.ds.base.toNat).toNat)
      (s.ds.base.toNat + 20) opts) :
    execIpv4Decode s = .next (((s.setWalk s.ipWalk).setIp (ipWindowOf s s.ds.base.toNat opts)
      (writeSlots opts 0 s.ipOpt)).answer okCode) := by
  obtain ⟨hend, rfl⟩ : s.ipWalk.status = .ended ∧ s.ipWalk.opts = opts :=
    walkRegion_of_optionList hlist
  rw [execIpv4Decode_of_header h20 hin h5 hr, if_neg (by simp [hend])]

theorem execIpv4Decode_of_no_optionList
    (hlist : ¬∃ opts : List OptEntry, OptionList s.bufByte
      (s.ds.base.toNat + 4 * (ipIhl s s.ds.base.toNat).toNat) (s.ds.base.toNat + 20) opts) :
    execIpv4Decode s =
      .next ((s.setWalk s.ipWalk).answer ErrorKind.invalidOptions.code) := by
  have hbad : s.ipWalk.status = .invalid := walkRegion_invalid_of_no_optionList hlist
  rw [execIpv4Decode_of_header h20 hin h5 hr, if_pos hbad]

end

/-- A 4-bit header length leaves room for at most twenty entries (44_ipv4_reference.md R216). -/
theorem OptionList.length_le_optionSlots {rd : Nat → Byte} {p : Nat} {ihl : BitVec 4}
    {opts : List OptEntry} (h : OptionList rd (p + 4 * ihl.toNat) (p + 20) opts) :
    opts.length ≤ Config.optionSlots := by
  obtain ⟨_, rfl⟩ := walkRegion_of_optionList h
  exact length_opts_walkRegion_le rd p (Nat.le_of_lt_succ ihl.isLt)

/-- Settles O24: the walk finds the list exactly when there is one. -/
theorem ipv4DecodeFollowsOptionList : Obligations.Ipv4DecodeFollowsOptionList := by
  rintro s p r n rfl rfl hn h20 hin h5 hr
  obtain rfl : n = (ipIhl s s.ds.base.toNat).toNat := hn
  refine ⟨fun opts hlist => ?_, fun hnone => ?_⟩
  · exact ⟨_, execIpv4Decode_of_optionList h20 hin h5 hr hlist, rfl, rfl, rfl,
      hlist.length_le_optionSlots, fun _ hj => arrayRead_writeSlots_entry opts s.ipOpt hj,
      fun _ hj => arrayRead_writeSlots_behind opts s.ipOpt hj⟩
  · exact ⟨_, execIpv4Decode_of_no_optionList h20 hin h5 hr hnone, rfl, rfl, rfl⟩

/-- Settles O27: EOL at the region's start is an empty option list. -/
theorem eolFirstGivesNoOptions : Obligations.EolFirstGivesNoOptions := by
  rintro s p r n rfl rfl hn h20 hin h5 hr heol
  obtain rfl : n = (ipIhl s s.ds.base.toNat).toNat := hn
  exact ⟨_, execIpv4Decode_of_optionList h20 hin (Nat.le_of_lt h5) hr (.eol (by omega) heol),
    rfl, rfl, rfl, rfl⟩

/-! ### The words of the window (44_ipv4_reference.md R203, R215) -/

/-- Two neighbouring fields behind further bits are the value they are cut from. -/
theorem append_fields {m n k : Nat} (x : BitVec m) (v : BitVec (n + k)) :
    x ++ v.extractLsb' k n ++ v.extractLsb' 0 k = (x ++ v).cast (Nat.add_assoc m n k).symm := by
  rw [BitVec.append_assoc, BitVec.extractLsb'_append_extractLsb']

section
variable {p : Nat} {opts : List OptEntry} (h : t.ip = ipWindowOf s p opts)
include h

theorem readReg_ipVerIhl_of_ipWindowOf :
    t.readReg .ipVerIhl = s.be16 (p + 2) ++ s.bufByte (p + 1) ++ s.bufByte p := by
  have hservice : s.be16 (p + 2) ++ (s.bufByte (p + 1)).extractLsb' 2 6 ++
      (s.bufByte (p + 1)).extractLsb' 0 2 = s.be16 (p + 2) ++ s.bufByte (p + 1) :=
    append_fields (n := 6) (k := 2) _ _
  rw [State.readReg, h]
  simp only [ipWindowOf]
  rw [hservice]
  exact append_fields (n := 4) (k := 4) _ _

theorem readReg_ipIdFrag_of_ipWindowOf :
    t.readReg .ipIdFrag = s.be16 (p + 6) ++ s.be16 (p + 4) := by
  have hfrag : (s.be16 (p + 6)).extractLsb' 13 3 ++ (s.be16 (p + 6)).extractLsb' 0 13 =
      s.be16 (p + 6) := BitVec.extractLsb'_append_extractLsb' (w := 3) (len := 13)
  rw [State.readReg, h]
  simp only [ipWindowOf]
  rw [hfrag]

end

/-- Settles O28: the window of the OK, read word by word. -/
theorem ipv4WindowWords : Obligations.Ipv4WindowWords := by
  rintro s t p n rfl rfl h hok
  rcases execIpv4Decode_cases s with ⟨_, he⟩ | ⟨_, _, he⟩ | ⟨_, _, _, he⟩ | ⟨_, _, _, _, _, he⟩ |
    ⟨_, _, _, _, _, he⟩ <;> cases he.symm.trans h
  · cases hok
  · cases hok
  · cases hok
  · exact ⟨readReg_ipVerIhl_of_ipWindowOf rfl, readReg_ipIdFrag_of_ipWindowOf rfl, rfl, rfl, rfl,
      rfl⟩

/-! ### The writers of the IPv4 window and slots -/

/-- The one instruction that writes the IPv4 window or a slot is an IPV4_DECODE that answers OK. -/
theorem ipv4Decode_of_exec {i : Instr} (h : exec i s = .next t)
    (hne : t.ip ≠ s.ip ∨ t.ipOpt ≠ s.ipOpt) :
    i = .ipv4Decode ∧ t.ds.ack = true ∧ t.ds.resp = okCode := by
  by_cases hi : i.space = .dsClass
  · cases i with
    | arpDecode =>
      rcases execArpDecode_next h with ⟨_, _, _, rfl⟩ | ⟨_, _, rfl⟩ <;> simp at hne
    | ipv4Decode =>
      rcases execIpv4Decode_next h with ⟨_, _, _, rfl⟩ | ⟨_, _, _, rfl⟩
      · simp at hne
      · exact ⟨rfl, rfl, rfl⟩
    | _ => cases hi
  · obtain ⟨_, hip, hopt⟩ := sameWindows_of_exec hi h
    simp [hip, hopt] at hne

/-- An EXTERNAL unit writes the IPv4 window and slots with OK to an IPv4 request (log 6, log 17). -/
theorem ipv4_request_of_externalStep {x : ExternalAnswer} (h : externalStep x s = .next t)
    (hne : t.ip ≠ s.ip ∨ t.ipOpt ≠ s.ipOpt) :
    s.dsUnit = .external ∧ s.ds.cls = .ipv4 ∧ x.resp = okCode := by
  rcases externalStep_cases x s with ⟨_, he⟩ | ⟨⟨hunit, _⟩, ⟨_, he⟩ | ⟨_, _, he⟩ | ⟨hok, he⟩⟩ <;>
    cases he.symm.trans h
  · simp at hne
  · simp at hne
  · rcases s.writeDrawn_cases x with ⟨_, hw⟩ | ⟨hcls, _⟩
    · simp [hw] at hne
    · exact ⟨hunit, hcls, hok⟩

/-- Settles O29: a step that changes the window or a slot runs an IPV4_DECODE that answers OK, or fetches
no instruction and is an EXTERNAL unit's or reset. -/
theorem ipv4WindowWriters : Obligations.Ipv4WindowWriters := by
  intro s t h hne
  cases hf : s.fetched? with
  | some i =>
    rw [step_of_fetched? hf] at h
    obtain ⟨rfl, hack, hresp⟩ := ipv4Decode_of_exec h hne
    obtain ⟨hunit, _⟩ := State.referenceEnabled_iff.1 (referenceEnabled_of_fetched? rfl hf)
    exact .inl ⟨rfl, hunit, hack, hresp⟩
  | none =>
    rcases step_of_not_fetched? hf h with ⟨x, rest, hm, he⟩ | hreset | ⟨_, hip, hopt⟩
    · obtain ⟨hunit, hcls, hok⟩ := ipv4_request_of_externalStep he hne
      exact .inr (.inl ⟨hunit, hcls, x, rest, hm, hok⟩)
    · exact .inr (.inr hreset)
    · simp [hip, hopt] at hne

end Sys2Proof.Machine
end

section
/-! SUPPORT, O8, O16 and O32. The START command by its conditions (45_frame_fsm.md R230, R231), the
frame of the five commands, and IDLE, which no other step of any agent leaves (R232). -/

namespace Sys2Proof.Machine

variable {s t : State} {m : ParseMode}

/-! ### START, by its conditions -/

theorem startCommand_accepted (hs : s.state = StateCode.idle) (hm : m ≠ .reserved)
    (hl : s.frameLen.toNat ≤ s.config.maxFrameLen.toNat) :
    startCommand m s = .next ((s.setCtrlMode m).beginParse m) := by
  rcases startCommand_cases m s with ⟨h, _⟩ | ⟨_, _, _, _⟩ | ⟨_, _, _, he⟩
  · simp [hs, hm] at h
  · omega
  · exact he

theorem startCommand_tooLong (hs : s.state = StateCode.idle) (hm : m ≠ .reserved)
    (hl : s.config.maxFrameLen.toNat < s.frameLen.toNat) :
    startCommand m s = .refused .startTooLong := by
  rcases startCommand_cases m s with ⟨h, _⟩ | ⟨_, _, _, he⟩ | ⟨_, _, _, _⟩
  · simp [hs, hm] at h
  · exact he
  · omega

theorem startCommand_ignored (h : s.state ≠ StateCode.idle ∨ m = .reserved) :
    startCommand m s = .next (s.setCtrlMode m) :=
  if_pos h

/-- Settles O16: the three named modes give the START command; the fourth is always ignored. -/
theorem startBeginsParseOrIsIgnored : Obligations.StartBeginsParseOrIsIgnored := by
  refine ⟨fun s i m hi => ?_, exec_startReserved_eq_next⟩
  obtain ⟨hexec, hm⟩ : exec i s = startCommand m s ∧ m ≠ .reserved := by
    rcases hi with ⟨rfl, rfl⟩ | ⟨rfl, rfl⟩ | ⟨rfl, rfl⟩ <;> exact ⟨rfl, nofun⟩
  rw [hexec]
  exact ⟨fun hs hl => startCommand_accepted hs hm hl, fun hs hl => startCommand_tooLong hs hm hl,
    fun hs => startCommand_ignored (.inl hs)⟩

/-! ### The frame of the commands -/

theorem startCommand_frame (h : startCommand m s = .next t) :
    t = { s with
      ctrlMode := t.ctrlMode, lenL := t.lenL, modeL := t.modeL, off := t.off, code := t.code
      status := t.status, etherType := t.etherType, payload := t.payload
      vlanInfo := t.vlanInfo, addrViews := t.addrViews, state := t.state } := by
  rcases startCommand_cases m s with ⟨_, he⟩ | ⟨_, _, _, he⟩ | ⟨_, _, _, he⟩ <;>
    cases he.symm.trans h <;> rfl

/-- Settles O32: SET_MODE writes MODE alone, and START what its frame equation lists. -/
theorem commandFrame : Obligations.CommandFrame := by
  intro i s t hi h
  cases i with
  | setMode => cases h; simp [State.bufByte]
  | startAuto | startExpectArp | startExpectIpv4 | startReserved =>
    rw [startCommand_frame h]
    simp [State.bufByte]
  | _ => cases hi

/-! ### IDLE (45_frame_fsm.md R232) -/

theorem engineEnabled_idle (hs : s.state = StateCode.idle) : s.engineEnabled = false :=
  Bool.eq_false_iff.2 fun he => (State.engineEnabled_iff.1 he).1 hs

theorem engineStep_idle (hs : s.state = StateCode.idle) : engineStep s = .next s :=
  engineStep_of_instr? (i := .idle) (by rw [hs]; rfl)

/-- The CTRL word of an accepted START: START set, the mode not the reserved one. -/
def StartsParse (v : Word) : Prop := v.extractLsb' 0 1 = 1#1 ∧ v.extractLsb' 1 2 ≠ 3#2

theorem exec_decodeCtrl_leavesState {v : Word} (h : exec (decodeCtrl v) s = .next t)
    (hne : t.state ≠ s.state) : StartsParse v := by
  rcases exec_decodeCtrl_next h with rfl | ⟨_, hstart, _⟩
  · exact absurd rfl hne
  · refine ⟨(BitVec.eq_zero_or_eq_one _).resolve_left hstart, fun hmode => ?_⟩
    rw [exec_decodeCtrl, if_neg hstart, hmode] at h
    cases (startCommand_ignored (.inr rfl)).symm.trans h
    exact hne rfl

theorem downstreamStep_state (h : downstreamStep s = .next t) : t.state = s.state := by
  rcases exec_of_downstreamStep h with ⟨_, rfl⟩ | ⟨hr, _⟩
  · rfl
  · rw [downstreamStep_frame hr h]

theorem externalStep_state {x : ExternalAnswer} (h : externalStep x s = .next t) :
    t.state = s.state := by
  rcases externalStep_cases x s with ⟨_, he⟩ | ⟨_, ⟨_, he⟩ | ⟨_, _, he⟩ | ⟨_, he⟩⟩ <;>
    cases he.symm.trans h
  · rfl
  · rfl
  · rw [State.answer_state, State.writeDrawn_frame]

/-- A move that leaves IDLE is a host write of an accepted START. -/
theorem runMove_leavesIdle {mv : Move} (hs : s.state = StateCode.idle)
    (h : runMove mv s = .next t) (hne : t.state ≠ s.state) :
    ∃ v : Word, mv = .host (.regWrite 0x000 .word v) ∧ StartsParse v := by
  have hkeeps (hkeep : t.state = s.state) :
      ∃ v : Word, mv = .host (.regWrite 0x000 .word v) ∧ StartsParse v := absurd hkeep hne
  cases mv with
  | host a =>
    rcases hostAccess_cases h with ⟨_, rfl⟩ | rfl | ⟨_, rfl⟩ | ⟨v, rfl, he⟩ | ⟨_, _, _, _, _, rfl⟩
    · exact hkeeps rfl
    · exact hkeeps rfl
    · exact hkeeps rfl
    · exact ⟨v, rfl, exec_decodeCtrl_leavesState he hne⟩
    · exact hkeeps rfl
  | engine => cases (engineStep_idle hs).symm.trans h; exact hkeeps rfl
  | downstream => exact hkeeps (downstreamStep_state h)
  | external x => exact hkeeps (externalStep_state h)
  | reset => cases h; exact hkeeps hs.symm
  | classify c => cases (exec_decodeEtherType c s).symm.trans h; exact hkeeps rfl
  | selectWidths f => cases (exec_decodeArpProto f s).symm.trans h; exact hkeeps rfl
  | optionByte b =>
    obtain ⟨_, hspace, _⟩ := decodeOptType_hasWord b
    rw [exec_combinational_frame (.inr (.inr hspace)) h] at hne
    exact absurd rfl hne

/-- Settles O8: with no move given IDLE has no step of the engine, and only a START of the moves
leaves it. -/
theorem idleWaitsForStart : Obligations.IdleWaitsForStart := by
  refine ⟨fun s => engineEnabled_idle, fun s t hs h hne => ?_, fun _ => rfl, fun _ _ => rfl⟩
  rw [← hs] at hne
  cases hm : s.moves with
  | nil =>
    rw [step_nil hm, engineEnabled_idle hs] at h
    exact absurd (downstreamStep_state h) hne
  | cons mv rest =>
    rw [step_cons hm] at h
    obtain ⟨v, rfl, hstart, hmode⟩ := runMove_leavesIdle (s := s.setMoves rest) hs h hne
    exact ⟨v, rest, rfl, hstart, hmode⟩

end Sys2Proof.Machine
end

section
/-! SUPPORT, O12, O13, O14, O49 and O56. The sequencer behind the tag loop, and the successor of
every STATE code (45_frame_fsm.md R238 to R249). -/

namespace Sys2Proof.Machine

variable {s t : State}

/-! ### ETYPE_LATCH (45_frame_fsm.md R238) -/

/-- Settles O12: the sums stay in the frame, so 16 bits hold them. -/
theorem etypeLatchWritesPayloadView : Obligations.EtypeLatchWritesPayloadView := by
  intro s hin
  have hlen := half_lt s.lenL
  exact ⟨_, exec_etypeLatch s, rfl, toNat_half (by omega), toNat_half (by omega),
    toNat_half (by omega)⟩

/-! ### DISPATCH (45_frame_fsm.md R240) -/

/-- The class that DISPATCH reports, by the code. -/
theorem frameClass_classify {c : Half} (hv : c ≠ 0x8100#16) : (classify c).frameClass =
    if c = 0x0806#16 then .arp else if c = 0x0800#16 then .ipv4 else .unknown := by
  unfold classify
  rw [if_neg hv]
  split
  · rfl
  · split <;> rfl

/-- Settles O13: by the cases of DISPATCH; the hypotheses of each clause exclude the other cases. -/
theorem dispatchBranches : Obligations.DispatchBranches := by
  rintro s cls hv rfl hm
  rw [← frameClass_classify hv, exec_dispatch]
  rcases execDispatch_cases s (mt classify_eq_vlan.1 hv) with ⟨hc, hm', _, he⟩ | ⟨hc, hm', _, he⟩ |
    ⟨hc, hm', he⟩ | ⟨hc, hm', he⟩ | ⟨hc, hm', he⟩ | ⟨hm', _⟩
  · rw [classify_eq_arp] at hc
    exact ⟨_, he, rfl, by simp [hc], fun _ _ => ⟨rfl, rfl, rfl⟩, by simp [hc], by simp [hc],
      fun h => absurd h hm'⟩
  · rw [classify_eq_ipv4] at hc
    exact ⟨_, he, rfl, by simp [hc], by simp [hc], fun _ _ => ⟨rfl, rfl, rfl⟩,
      fun h => absurd h hm', by simp [hc]⟩
  · obtain ⟨_, harp, hipv4⟩ := classify_eq_other.1 hc
    exact ⟨_, he, rfl, fun _ _ _ => ⟨rfl, rfl, rfl⟩, fun _ h => absurd h harp,
      fun _ h => absurd h hipv4, by simp [hm'], by simp [hm']⟩
  · exact ⟨_, he, rfl, by simp [hm'], fun _ h => absurd (classify_eq_arp.2 h) hc, by simp [hm'],
      fun _ _ => ⟨rfl, rfl, rfl⟩, by simp [hm']⟩
  · exact ⟨_, he, rfl, by simp [hm'], by simp [hm'], fun _ h => absurd (classify_eq_ipv4.2 h) hc,
      by simp [hm'], fun _ _ => ⟨rfl, rfl, rfl⟩⟩
  · exact absurd hm' hm

/-! ### DS_WAIT (45_frame_fsm.md R243) -/

/-- The answer taken: the request released and the parse finished with DS_RESP, an error marked as
the downstream unit's. -/
def State.takeAnswer (s : State) : State :=
  { s with
    ds := { s.ds with req := false, ack := false }
    status := ⟨false, true, s.status.cls, s.ds.resp, s.status.errDs || s.ds.resp != okCode⟩
    state := StateCode.idle }

theorem execDsWait_of_ack (h : s.ds.ack = true) : execDsWait s = .next s.takeAnswer := by
  rcases execDsWait_cases s with ⟨hno, _⟩ | ⟨_, hok, he⟩ | ⟨_, herr, he⟩
  · simp [h] at hno
  · rw [he]
    simp [State.takeAnswer, State.finish, State.clearRequest, Status.finished, hok]
  · rw [he]
    simp [State.takeAnswer, State.finish, State.clearRequest, State.setErrDs, Status.withErrDs,
      Status.finished, herr]

theorem execDsWait_of_no_ack (h : s.ds.ack = false) : execDsWait s = .next s := by
  rcases execDsWait_cases s with ⟨_, he⟩ | ⟨hack, _⟩ | ⟨hack, _⟩
  · exact he
  · simp [h] at hack
  · simp [h] at hack

theorem engineEnabled_dsWait (hs : s.state = StateCode.dsWait) :
    s.engineEnabled = true ↔ s.ds.ack = true :=
  State.engineEnabled_iff.trans ⟨fun h => h.2 hs, fun h => ⟨hs ▸ nofun, fun _ => h⟩⟩

/-- Settles O14: an answered DS_WAIT takes the answer, whose code decides ERR_DS. -/
theorem dsWaitPropagatesAnswer : Obligations.DsWaitPropagatesAnswer := by
  refine fun s => ⟨engineEnabled_dsWait, fun hack hok => ?_, fun hack herr => ?_⟩
  · rw [exec_dsWait, execDsWait_of_ack hack]
    simp [State.takeAnswer, StateCode.idle, okCode, hok]
  · rw [exec_dsWait, execDsWait_of_ack hack]
    simp [State.takeAnswer, StateCode.idle, okCode, herr]

/-! ### The transition table (45_frame_fsm.md R249) -/

theorem execEthAddr_state (h : execEthAddr s = .next t) :
    t.state = if s.lenL.toNat < 12 then StateCode.idle else StateCode.tagPeek := by
  rcases execEthAddr_cases s with ⟨hl, he⟩ | ⟨hl, he⟩ <;> cases he.symm.trans h
  · rw [if_pos hl, State.raise_state]
  · rw [if_neg (Nat.not_lt.2 hl), State.latchAddrViews_state]

theorem execTagPeek_state (h : execTagPeek s = .next t) :
    t.state = if s.lenL.toNat < s.off.toNat + 2 then StateCode.idle
      else if s.be16 s.off.toNat = 0x8100#16 then StateCode.tagRead else StateCode.etypeLatch := by
  rcases execTagPeek_cases s with ⟨hl, he⟩ | ⟨_, _, he⟩ | ⟨hl, _, hc, he⟩ | ⟨hl, _, hc, he⟩ <;>
    cases he.symm.trans h
  · rw [if_pos hl, State.raise_state]
  · rw [if_neg (Nat.not_lt.2 hl), if_pos hc, State.goto_state]
  · rw [if_neg (Nat.not_lt.2 hl), if_neg hc, State.goto_state]

theorem execTagRead_state (h : execTagRead s = .next t) :
    t.state = if s.lenL.toNat < s.off.toNat + 4 ∨ s.vlanInfo.count = s.config.vlanMaxDepth
      then StateCode.idle else StateCode.tagPeek := by
  rcases execTagRead_cases s with ⟨hl, he⟩ | ⟨_, hfull, he⟩ | ⟨_, _, _, he⟩ | ⟨hl, hfree, _, he⟩ <;>
    cases he.symm.trans h
  · rw [if_pos (.inl hl), State.raise_state]
  · rw [if_pos (.inr hfull), State.raise_state]
  · rw [if_neg (not_or.2 ⟨Nat.not_lt.2 hl, hfree⟩), State.pushTag_state]

/-- DISPATCH hands off the codes that its mode takes. -/
theorem execDispatch_state (hv : classify s.code ≠ .vlan) (h : execDispatch s = .next t) :
    t.state = if s.code = 0x0806#16 ∧ s.modeL ≠ .expectIpv4 ∨
        s.code = 0x0800#16 ∧ s.modeL ≠ .expectArp
      then StateCode.dsWait else StateCode.idle := by
  simp only [← classify_eq_arp, ← classify_eq_ipv4]
  rcases execDispatch_cases s hv with ⟨hc, hm, _, he⟩ | ⟨hc, hm, _, he⟩ | ⟨hc, _, he⟩ |
    ⟨hc, hm, he⟩ | ⟨hc, hm, he⟩ | ⟨_, he⟩ <;> cases he.symm.trans h
  · rw [if_pos (.inl ⟨hc, hm⟩), State.issue_state]
  · rw [if_pos (.inr ⟨hc, hm⟩), State.issue_state]
  · rw [if_neg (by simp [hc]), State.finish_state]
  · rw [if_neg (by simp [hc, hm]), State.raise_state]
  · rw [if_neg (by simp [hc, hm]), State.raise_state]

theorem execDsWait_state (hs : s.state = StateCode.dsWait) (h : execDsWait s = .next t) :
    t.state = if s.ds.ack then StateCode.idle else StateCode.dsWait := by
  cases hack : s.ds.ack with
  | false => cases (execDsWait_of_no_ack hack).symm.trans h; exact hs
  | true => cases (execDsWait_of_ack hack).symm.trans h; rfl

/-- The engine at a STATE code performs its operation. -/
theorem exec_of_engineStep_at {c : BitVec 4} {i : Instr} (h : engineStep s = .next t)
    (hs : s.state = c) (hi : decodeState c = .ok i) : exec i s = .next t := by
  rw [← h, engineStep_of_instr?]
  rw [hs, hi]
  rfl

/-- Settles O49: each code's operation, with its successors. -/
theorem engineTransitionTable : Obligations.EngineTransitionTable := by
  intro s t hinv h
  refine ⟨fun hs => ?_, fun hs => execEthAddr_state (exec_of_engineStep_at h hs rfl),
    fun hs => execTagPeek_state (exec_of_engineStep_at h hs rfl),
    fun hs => execTagRead_state (exec_of_engineStep_at h hs rfl), fun hs => ?_,
    fun hs => ?_, fun hs => execDsWait_state hs (exec_of_engineStep_at h hs rfl)⟩
  · cases (engineStep_idle hs).symm.trans h
    rfl
  · cases exec_of_engineStep_at h hs rfl
    rfl
  · obtain ⟨_, hv, _⟩ := hinv.atDispatch (.inl hs)
    exact execDispatch_state hv (exec_of_engineStep_at h hs rfl)

/-! ### Hangs (45_frame_fsm.md R248) -/

/-- A state whose own step leaves it stays for ever. -/
theorem run_of_step_self {M : Host.Core} {s : M.State} (h : M.step s = .next s) (n : Nat) :
    M.run n s = .next s := by
  induction n with
  | zero => rfl
  | succ n ih => rw [run_succ h, ih]

/-- An EXTERNAL unit that is given no step leaves a waiting block with no agent enabled. -/
theorem step_unanswered (hunit : s.dsUnit = .external) (hs : s.state = StateCode.dsWait)
    (hack : s.ds.ack = false) (hm : s.moves = []) : step s = .next s := by
  have hengine : ¬ s.engineEnabled = true := by
    rw [engineEnabled_dsWait hs, hack]
    nofun
  have href : s.referenceEnabled = false := by simp [State.referenceEnabled, hunit]
  rw [step_nil hm, if_neg hengine, downstreamStep_disabled href]

/-- Settles O56: with no agent enabled the block's step leaves the state, so every run does. -/
theorem unansweredRequestHangs : Obligations.UnansweredRequestHangs :=
  ⟨exec_idle, fun _ => execDsWait_of_no_ack,
    fun _ n hunit hs hack hm => run_of_step_self (M := core) (step_unanswered hunit hs hack hm) n⟩

end Sys2Proof.Machine
end

section
/-! SUPPORT and O57. An EXTERNAL unit's decode step by its answer (45_frame_fsm.md R247,
60_exceptions.md R277), and the option slots that it writes with OK (log 6). -/

namespace Sys2Proof.Machine

variable {s : State} {x : ExternalAnswer}

/-! ### No open request -/

theorem externalStep_disabled (h : s.ds.req = false ∨ s.ds.ack = true) :
    externalStep x s = .next s := by
  rcases externalStep_cases x s with ⟨_, he⟩ | ⟨⟨_, hreq, hack⟩, _⟩
  · exact he
  · simp [hreq, hack] at h

/-! ### An open request, by the answer -/

section
variable (hunit : s.dsUnit = .external) (hreq : s.ds.req = true) (hack : s.ds.ack = false)
include hunit hreq hack

theorem externalStep_refused (hr : 3 < x.resp.toNat) :
    externalStep x s = .refused .externalAnswer := by
  rcases externalStep_cases x s with ⟨hno, _⟩ | ⟨_, ⟨_, he⟩ | ⟨_, _, _⟩ | ⟨hok, _⟩⟩
  · exact absurd ⟨hunit, hreq, hack⟩ hno
  · exact he
  · omega
  · simp [hok, okCode] at hr

theorem externalStep_error (hr : x.resp.toNat ≤ 3) (herr : x.resp ≠ okCode) :
    externalStep x s = .next (s.answer x.resp) := by
  rcases externalStep_cases x s with ⟨hno, _⟩ | ⟨_, ⟨_, _⟩ | ⟨_, _, he⟩ | ⟨hok, _⟩⟩
  · exact absurd ⟨hunit, hreq, hack⟩ hno
  · omega
  · exact he
  · exact absurd hok herr

theorem externalStep_ok (hok : x.resp = okCode) :
    externalStep x s = .next ((s.writeDrawn x).answer okCode) := by
  rcases externalStep_cases x s with ⟨hno, _⟩ | ⟨_, ⟨hr, _⟩ | ⟨_, herr, _⟩ | ⟨_, he⟩⟩
  · exact absurd ⟨hunit, hreq, hack⟩ hno
  · simp [hok, okCode] at hr
  · exact absurd hok herr
  · exact he

end

/-! ### What OK writes, by the request's class -/

theorem State.writeDrawn_arp (hcls : s.ds.cls = .arp) :
    s.writeDrawn x = s.setArp (x.arp.getD s.arp) := by
  unfold State.writeDrawn
  rw [hcls]

theorem State.writeDrawn_ipv4 (hcls : s.ds.cls = .ipv4) :
    s.writeDrawn x = s.setIp (x.ip.getD s.ip)
      (externalSlots (x.ip.getD s.ip).slotCount x.slots s.ipOpt) := by
  unfold State.writeDrawn
  rw [hcls]

/-- A slot is counted when it exists and lies below OPT_COUNT (44_ipv4_reference.md R216, R217). -/
theorem IpWindow.lt_slotCount {w : IpWindow} {j : Nat} :
    j < w.slotCount ↔ j < 20 ∧ j < w.optCount.toNat :=
  Nat.lt_min

theorem arrayRead_externalSlots_counted {w : IpWindow} {xs f : List (Nat × Word)} {j : Nat}
    (h20 : j < 20) (hcount : j < w.optCount.toNat) :
    arrayRead (externalSlots w.slotCount xs f) j = (lookup xs.reverse j).getD (arrayRead f j) := by
  rw [arrayRead_externalSlots, if_pos (IpWindow.lt_slotCount.2 ⟨h20, hcount⟩)]

theorem arrayRead_externalSlots_other {w : IpWindow} {xs f : List (Nat × Word)} {j : Nat}
    (h : 20 ≤ j ∨ w.optCount.toNat ≤ j) :
    arrayRead (externalSlots w.slotCount xs f) j = arrayRead f j := by
  rw [arrayRead_externalSlots, if_neg]
  rw [IpWindow.lt_slotCount]
  omega

/-- Settles O57: the step by its answer, and the slots of an OK by the count its window draws. -/
theorem externalAnswerBounds : Obligations.ExternalAnswerBounds := by
  refine fun s x hunit => ⟨fun hreq hack => ⟨externalStep_refused hunit hreq hack,
    externalStep_error hunit hreq hack, fun hok hcls => ?_, fun hok hcls => ?_⟩,
    externalStep_disabled⟩
  · rw [externalStep_ok hunit hreq hack hok, State.writeDrawn_arp hcls]
    rfl
  · rw [externalStep_ok hunit hreq hack hok, State.writeDrawn_ipv4 hcls]
    exact ⟨_, rfl, rfl, fun _ => arrayRead_externalSlots_counted,
      fun _ => arrayRead_externalSlots_other⟩

end Sys2Proof.Machine
end

section
/-! SUPPORT, O52, O53 and O54. Whole parses with no move given after the START (log 1): the run to
DISPATCH is the same for every frame; an unknown class ends there, and a handed-off one takes the
reference unit's decode and DS_WAIT (45_frame_fsm.md R230 to R251). -/

namespace Sys2Proof.Machine

variable {s t d u : State} {m : ParseMode} {k n : Nat}

/-! ### From the START to DISPATCH -/

/-- An idle block that is given a START and nothing after it, with a frame of `k` tags that the
buffer and the slots hold. -/
structure State.Loaded (s : State) (m : ParseMode) (k : Nat) : Prop where
  /-- The START is the only move given. -/
  moves : s.moves = [start m]
  /-- Its mode is not the reserved one. -/
  mode : m ≠ .reserved
  /-- No parse runs. -/
  idle : s.state = StateCode.idle
  /-- The frame lies in the buffer. -/
  frame : s.frameLen.toNat ≤ s.config.maxFrameLen.toNat
  /-- Its tags fit the slots. -/
  depth : k ≤ s.config.vlanMaxDepth.toNat
  /-- The tags, with an EtherType behind them. -/
  tags : s.TagStack s.frameLen.toNat k

/-- The result registers of the frame in `s`, of `k` tags, as `t` reads them after its parse
(45_frame_fsm.md R251, 42_vlan_stack.md R167). -/
structure State.FrameResults (s t : State) (k : Nat) : Prop where
  addrViews : t.readReg .addrViews = 0x06060600#32
  vlanInfo : t.readReg .vlanInfo = half (4 * k) ++ half k
  tags : ∀ j : Nat, j < k → t.readReg (.vlanTag j) = 0#16 ++ s.be16 (14 + 4 * j)
  others : ∀ j : Nat, k ≤ j → t.readReg (.vlanTag j) = s.readReg (.vlanTag j)
  etherType : t.readReg .etherType = half (12 + 4 * k) ++ s.be16 (12 + 4 * k)
  payload : t.readReg .payload =
    half (s.frameLen.toNat - (14 + 4 * k)) ++ half (14 + 4 * k)

/-- `t` is the state at DISPATCH of the parse that a START began in `s`. -/
structure State.AtDispatch (s t : State) (m : ParseMode) (k : Nat) : Prop where
  /-- The registers that the START and the engine wrote, and no other. -/
  frame : t = { s with
    ctrlMode := m, modeL := m, lenL := s.frameLen, off := t.off
    code := s.be16 (12 + 4 * k), status := Status.started, addrViews := t.addrViews
    etherType := t.etherType, vlanInfo := t.vlanInfo, vlanTag := t.vlanTag
    payload := ⟨half (14 + 4 * k), half (s.frameLen.toNat - (14 + 4 * k))⟩
    units := t.units, state := StateCode.dispatch, moves := [] }
  /-- The result registers stand. -/
  results : s.FrameResults t k

theorem eq_half_of_toNat {v : Half} (h : v.toNat = n) : v = half n := by
  rw [← h, half, BitVec.ofNat_toNat, BitVec.setWidth_eq]

/-- A host program's START is the START command of its mode (30_encoding.md R115, R121). -/
theorem runMove_start (m : ParseMode) (s : State) : runMove (start m) s = startCommand m s := by
  cases m <;> rfl

/-- One step of a run of the block. -/
theorem run_step (h : step s = .next t) (n : Nat) : core.run (n + 1) s = core.run n t :=
  run_succ (M := core) h n

/-- The state behind ETH_ADDR of a parse begun in `s`. -/
def State.begun (s : State) (m : ParseMode) : State :=
  (((s.setMoves []).setCtrlMode m).beginParse m).latchAddrViews

theorem State.Loaded.run_begun (h : s.Loaded m k) : core.run 2 s = .next (s.begun m) := by
  obtain ⟨hlen, _⟩ := h.tags
  have hlong : ¬ s.frameLen.toNat < 12 := by omega
  have hstart : step s = .next (((s.setMoves []).setCtrlMode m).beginParse m) := by
    rw [step_cons h.moves, runMove_start]
    exact startCommand_accepted (s := s.setMoves []) h.idle h.mode h.frame
  have haddr : step (((s.setMoves []).setCtrlMode m).beginParse m) = .next (s.begun m) :=
    (step_of_stateCode (c := StateCode.ethAddr) (i := .ethAddr) rfl rfl (by decide) (by decide)
      rfl).trans (if_neg hlong)
  rw [run_step hstart, run_step haddr]
  rfl

/-- The state behind the loop's last peek. -/
def State.peekEtherType (t : State) : State :=
  ((t.setCode (t.be16 t.off.toNat)).answerClass (classify (t.be16 t.off.toNat))).goto
    StateCode.etypeLatch

theorem State.Loaded.run_latchEtherType (h : s.Loaded m k) (ht : (s.begun m).TagsRead t k) :
    core.run 2 t = .next t.peekEtherType.latchEtherType := by
  obtain ⟨hlen, _, hcode⟩ := h.tags
  have hpeek : step t = .next t.peekEtherType :=
    (step_tagPeek ht.moves ht.state).trans (execTagPeek_of_not_tag
      (by rw [ht.off, ht.lenL]; exact hlen) (by rw [ht.lenL, ht.config]; exact h.frame)
      (by rw [ht.be16, ht.off]; exact hcode))
  have hlatch : step t.peekEtherType = .next t.peekEtherType.latchEtherType :=
    step_of_stateCode (c := StateCode.etypeLatch) (i := .etypeLatch) ht.moves rfl (by decide)
      (by decide) rfl
  rw [run_step hpeek, run_step hlatch]
  rfl

/-- The payload that ETYPE_LATCH finds behind the loop (45_frame_fsm.md R238). -/
theorem State.TagsRead.payload (ht : (s.begun m).TagsRead t k) :
    t.peekEtherType.latchEtherType.payload =
      ⟨half (14 + 4 * k), half (s.frameLen.toNat - (14 + 4 * k))⟩ := by
  have hoff := ht.off
  have hlen : t.lenL = s.frameLen := ht.lenL
  have hsum : t.off.toNat + 2 = 14 + 4 * k := by omega
  rw [← hsum, ← hlen]
  rfl

theorem State.TagsRead.etherType_code (ht : (s.begun m).TagsRead t k) :
    t.peekEtherType.latchEtherType.etherType.code = s.be16 (12 + 4 * k) := by
  change t.be16 t.off.toNat = _
  rw [ht.off, ht.be16]
  rfl

theorem State.TagsRead.frameResults (ht : (s.begun m).TagsRead t k) :
    s.FrameResults t.peekEtherType.latchEtherType k where
  addrViews := by
    have hviews : t.peekEtherType.latchEtherType.addrViews = ⟨0#8, 6#8, 6#8, 6#8⟩ := ht.addrViews
    rw [State.readReg, hviews]
    rfl
  vlanInfo := by
    have hcount : t.peekEtherType.latchEtherType.vlanInfo.count = half k :=
      eq_half_of_toNat ht.count
    have hbytes : t.peekEtherType.latchEtherType.vlanInfo.bytes = half (4 * k) :=
      eq_half_of_toNat ht.bytes
    rw [State.readReg, hcount, hbytes]
  tags j hj := by
    have htag : arrayRead t.peekEtherType.latchEtherType.vlanTag j = s.be16 (14 + 4 * j) :=
      ht.tags j hj
    rw [State.readReg, htag]
  others j hj := by
    have htag : arrayRead t.peekEtherType.latchEtherType.vlanTag j = arrayRead s.vlanTag j :=
      ht.others j hj
    rw [State.readReg, htag, State.readReg]
  etherType := by
    have hoff : t.peekEtherType.latchEtherType.etherType.off = half (12 + 4 * k) :=
      eq_half_of_toNat ht.off
    rw [State.readReg, hoff, ht.etherType_code]
  payload := by rw [State.readReg, ht.payload]

theorem State.TagsRead.atDispatch (ht : (s.begun m).TagsRead t k) :
    s.AtDispatch t.peekEtherType.latchEtherType m k := by
  have hcode : t.peekEtherType.latchEtherType.code = s.be16 (12 + 4 * k) :=
    ht.etherType_code
  refine ⟨?_, ht.frameResults⟩
  rw [← hcode, ← ht.payload, ht.frame]
  rfl

/-- The START, ETH_ADDR, the tag loop and ETYPE_LATCH take every loaded frame to DISPATCH. -/
theorem State.Loaded.exists_run_atDispatch (h : s.Loaded m k) :
    ∃ t : State, core.run (2 + 2 * k + 2) s = .next t ∧ s.AtDispatch t m k := by
  obtain ⟨hlen, htag, _⟩ := h.tags
  have hlen' : 12 + 4 * k ≤ s.frameLen.toNat := by omega
  obtain ⟨t, hloop, ht⟩ := exists_run_tagsRead (s := s.begun m) rfl rfl rfl rfl h.frame hlen'
    h.depth htag
  have hrun : core.run (2 + 2 * k) s = .next t :=
    (run_add (M := core) (2 * k) h.run_begun).trans hloop
  exact ⟨_, (run_add (M := core) 2 hrun).trans (h.run_latchEtherType ht), ht.atDispatch⟩

namespace State.AtDispatch

variable (h : s.AtDispatch t m k)
include h

theorem moves : t.moves = [] := by rw [h.frame]
theorem modeL : t.modeL = m := by rw [h.frame]
theorem code : t.code = s.be16 (12 + 4 * k) := by rw [h.frame]
theorem status : t.status = Status.started := by rw [h.frame]
theorem arp : t.arp = s.arp := by rw [h.frame]
theorem ip : t.ip = s.ip := by rw [h.frame]
theorem ipOpt : t.ipOpt = s.ipOpt := by rw [h.frame]
theorem ds : t.ds = s.ds := by rw [h.frame]

theorem step_eq : step t = execDispatch t :=
  step_of_stateCode (c := StateCode.dispatch) (i := .dispatch) h.moves (by rw [h.frame]) (by decide)
    (by decide) rfl

theorem classified_status :
    t.classified.status = Status.started.withClass (classify t.code).frameClass :=
  congrArg (Status.withClass · _) h.status

end State.AtDispatch

/-! ### A frame of an unknown class (45_frame_fsm.md R240) -/

/-- Settles O52: DISPATCH finishes in mode AUTO, and the run to it writes no downstream register. -/
theorem unknownFrameParse : Obligations.UnknownFrameParse := by
  rintro s k _ hm hs rfl hframe hk htags harp hipv4
  have hload : s.Loaded .auto k := ⟨hm, nofun, hs, hframe, hk, htags⟩
  obtain ⟨t, hrun, ht⟩ := hload.exists_run_atDispatch
  obtain ⟨_, _, hvlan⟩ := htags
  have hcls : classify t.code = .other := by
    rw [ht.code]
    exact classify_eq_other.2 ⟨hvlan, harp, hipv4⟩
  have hfinish : step t = .next (t.classified.finish okCode) := by
    rw [ht.step_eq, execDispatch, ht.modeL]
    exact if_pos hcls
  have hstatus : (t.classified.finish okCode).readReg .status = 0x0000000E#32 := by
    rw [State.readReg, State.finish_status, ht.classified_status, hcls]
    rfl
  have hdone : (t.classified.finish okCode).Completed := ⟨rfl, rfl, rfl⟩
  have hsteps : 1 + (2 * k + 4) = 2 + 2 * k + 2 + 1 := by omega
  rw [hsteps]
  exact ⟨_, (run_add (M := core) 1 hrun).trans (run_step hfinish 0), hdone, hstatus,
    ht.results.addrViews, ht.results.vlanInfo, ht.results.etherType, ht.results.payload,
    ht.results.tags, ht.results.others, ht.arp, ht.ip, ht.ipOpt, ht.ds⟩

/-! ### From DISPATCH through the reference unit (45_frame_fsm.md R240 to R246) -/

/-- A mode that hands a class off (45_frame_fsm.md R240). -/
def EtherClass.HandedOffIn (e : EtherClass) (m : ParseMode) : Prop :=
  e = .arp ∧ (m = .auto ∨ m = .expectArp) ∨ e = .ipv4 ∧ (m = .auto ∨ m = .expectIpv4)

theorem EtherClass.HandedOffIn.ne_reserved {e : EtherClass} (h : e.HandedOffIn m) :
    m ≠ .reserved := by
  rcases h with ⟨_, rfl | rfl⟩ | ⟨_, rfl | rfl⟩ <;> nofun

theorem execDispatch_of_handedOffIn (h : (classify s.code).HandedOffIn s.modeL) :
    execDispatch s = .next (s.classified.issue (classify s.code).dsClass) := by
  rcases h with ⟨hc, hm | hm⟩ | ⟨hc, hm | hm⟩ <;>
    simp [execDispatch, State.classified, hc, hm, EtherClass.dsClass]

/-- `d` is the state at DS_WAIT, with the payload of class `e` handed off, of the parse that a START
began in `s`. -/
structure State.HandedOff (s d : State) (e : EtherClass) (k : Nat) : Prop where
  /-- The registers that the START and the engine wrote, and no other. -/
  frame : d = { s with
    ctrlMode := d.ctrlMode, modeL := d.modeL, lenL := d.lenL, off := d.off, code := d.code
    status := Status.started.withClass e.frameClass, addrViews := d.addrViews
    etherType := d.etherType, vlanInfo := d.vlanInfo, vlanTag := d.vlanTag, payload := d.payload
    ds := ⟨true, e.dsClass, half (14 + 4 * k), half (s.frameLen.toNat - (14 + 4 * k)), false,
      s.ds.resp⟩
    units := d.units, state := StateCode.dsWait, moves := [] }
  /-- The result registers stand. -/
  results : s.FrameResults d k
  /-- The payload lies in the frame, and the frame in the buffer. -/
  fits : 14 + 4 * k ≤ s.frameLen.toNat ∧ s.frameLen.toNat ≤ s.config.maxFrameLen.toNat

theorem State.Loaded.issue (hload : s.Loaded m k) (h : s.AtDispatch t m k) :
    s.HandedOff (t.classified.issue (classify t.code).dsClass) (classify t.code) k := by
  obtain ⟨hlen, _⟩ := hload.tags
  refine ⟨?_, { h.results with }, by omega, hload.frame⟩
  rw [h.frame]
  rfl

theorem State.Loaded.exists_run_handedOff {e : EtherClass} (h : s.Loaded m k)
    (he : classify (s.be16 (12 + 4 * k)) = e) (hm : e.HandedOffIn m) :
    ∃ d : State, core.run (2 + 2 * k + 2 + 1) s = .next d ∧ s.HandedOff d e k := by
  obtain ⟨t, hrun, ht⟩ := h.exists_run_atDispatch
  rw [← ht.code] at he
  rw [← ht.modeL] at hm
  subst he
  exact ⟨_, (run_add (M := core) 1 hrun).trans
    (run_step (ht.step_eq.trans (execDispatch_of_handedOffIn hm)) 0), h.issue ht⟩

namespace State.HandedOff

variable {e : EtherClass} (h : s.HandedOff d e k)
include h

theorem moves : d.moves = [] := by rw [h.frame]
theorem state : d.state = StateCode.dsWait := by rw [h.frame]
theorem status : d.status = Status.started.withClass e.frameClass := by rw [h.frame]
theorem ds : d.ds = ⟨true, e.dsClass, half (14 + 4 * k),
    half (s.frameLen.toNat - (14 + 4 * k)), false, s.ds.resp⟩ := by rw [h.frame]
theorem config : d.config = s.config := by rw [h.frame]
theorem dsUnit : d.dsUnit = s.dsUnit := by rw [h.frame]
theorem arp : d.arp = s.arp := by rw [h.frame]
theorem ip : d.ip = s.ip := by rw [h.frame]
theorem ipOpt : d.ipOpt = s.ipOpt := by rw [h.frame]
theorem bufByte : d.bufByte = s.bufByte := by rw [h.frame]; rfl
theorem be16 : d.be16 = s.be16 := by rw [h.frame]; rfl

theorem toNat_base : d.ds.base.toNat = 14 + 4 * k := by
  have hlen := half_lt s.frameLen
  have hfits := h.fits
  rw [h.ds]
  exact toNat_half (by omega)

theorem toNat_len : d.ds.len.toNat = s.frameLen.toNat - (14 + 4 * k) := by
  have hlen := half_lt s.frameLen
  rw [h.ds]
  exact toNat_half (by omega)

/-- The unit's input lies in the buffer (20_memory.md R75). -/
theorem input_le : d.ds.base.toNat + d.ds.len.toNat ≤ d.config.maxFrameLen.toNat := by
  have hfits := h.fits
  rw [h.toNat_base, h.toNat_len, h.config]
  omega

/-- A REFERENCE block waiting for an answer gives the unit of the class its step. -/
theorem referenceEnabled (hunit : s.dsUnit = .reference) : d.referenceEnabled = true :=
  State.referenceEnabled_iff.2 ⟨h.dsUnit.trans hunit, by rw [h.ds], by rw [h.ds]⟩

theorem engineEnabled : ¬ d.engineEnabled = true := by
  rw [engineEnabled_dsWait h.state, h.ds]
  nofun

variable (hunit : s.dsUnit = .reference) (hdec : exec (decodeDsClass e.dsClass.bit) d = .next u)
include hunit hdec

theorem downstreamStep_eq : downstreamStep d = .next u := by
  rw [downstreamStep_enabled (h.referenceEnabled hunit), h.ds]
  exact hdec

/-- The answer's frame (45_frame_fsm.md R246). -/
theorem answer_frame : u = { d with
    ds := { d.ds with resp := u.ds.resp, ack := true }
    arp := u.arp, ip := u.ip, ipOpt := u.ipOpt, units := u.units } :=
  downstreamStep_frame (h.referenceEnabled hunit) (h.downstreamStep_eq hunit hdec)

/-- The unit answers, and DS_WAIT takes the answer. -/
theorem run_takeAnswer : core.run 2 d = .next u.takeAnswer := by
  have hframe := h.answer_frame hunit hdec
  have hack : u.ds.ack = true := by rw [hframe]
  have hwait : u.state = StateCode.dsWait := by rw [hframe]; exact h.state
  have hdecode : step d = .next u := by
    rw [step_nil h.moves, if_neg h.engineEnabled, h.downstreamStep_eq hunit hdec]
  have htake : step u = .next u.takeAnswer := by
    rw [step_nil (by rw [hframe]; exact h.moves), if_pos ((engineEnabled_dsWait hwait).2 hack),
      engineStep_of_instr? (i := .dsWait) (by rw [hwait]; rfl)]
    exact execDsWait_of_ack hack
  rw [run_step hdecode, run_step htake]
  rfl

theorem frameResults_takeAnswer : s.FrameResults u.takeAnswer k := by
  rw [h.answer_frame hunit hdec]
  exact { h.results with }

theorem status_answer : u.status = Status.started.withClass e.frameClass := by
  rw [h.answer_frame hunit hdec]
  exact h.status

/-- The answer OK ends the parse without error (45_frame_fsm.md R243). -/
theorem takeAnswer_ok (hresp : u.ds.resp = okCode) :
    u.takeAnswer.readReg .status = Status.word ⟨false, true, e.frameClass, okCode, false⟩ := by
  rw [State.readReg, State.takeAnswer, h.status_answer hunit hdec, hresp]
  rfl

/-- An error answer becomes ERR_CODE with ERR_DS = 1, and the windows stay (60_exceptions.md
R277). -/
theorem takeAnswer_error {x : ErrorKind} (hresp : u.ds.resp = x.code) :
    u.takeAnswer.readReg .status = Status.word ⟨false, true, e.frameClass, x.code, true⟩ ∧
      u.arp = s.arp ∧ u.ip = s.ip ∧ u.ipOpt = s.ipOpt := by
  have herr : x.code ≠ okCode := by cases x <;> decide
  obtain ⟨_, _, _, _, hwindows, _⟩ := downstreamFrame _ d u (decodeDsClass_bit _) hdec
  obtain ⟨harp, hip, hopt⟩ := hwindows (hresp ▸ herr)
  refine ⟨?_, harp.trans h.arp, hip.trans h.ip, hopt.trans h.ipOpt⟩
  rw [State.readReg, State.takeAnswer, h.status_answer hunit hdec, hresp, bne_iff_ne.2 herr]
  rfl

/-- PAYLOAD reads the unit's input (45_frame_fsm.md R240). -/
theorem payload_takeAnswer : u.takeAnswer.readReg .payload =
    half d.ds.len.toNat ++ half d.ds.base.toNat := by
  rw [(h.frameResults_takeAnswer hunit hdec).payload, h.toNat_len, h.toNat_base]

/-- The whole run of a handed-off parse (45_frame_fsm.md R250). -/
theorem run_parse (hrun : core.run (2 + 2 * k + 2 + 1) s = .next d) :
    core.run (1 + (2 * k + 5) + 1) s = .next u.takeAnswer := by
  have hsteps : 1 + (2 * k + 5) + 1 = 2 + 2 * k + 2 + 1 + 2 := by omega
  rw [hsteps]
  exact (run_add (M := core) 2 hrun).trans (h.run_takeAnswer hunit hdec)

end State.HandedOff

/-! ### ARP frames (43_arp_reference.md R184, R191) -/

/-- ARP_DECODE on an input that lies in the buffer, by the one length that matters (R184). -/
theorem exists_exec_arpDecode {pr : Nat}
    (hin : s.ds.base.toNat + s.ds.len.toNat ≤ s.config.maxFrameLen.toNat)
    (hpr : pr = if s.be16 (s.ds.base.toNat + 2) = 0x0800#16 then 4 else 6) :
    ∃ u : State, exec .arpDecode s = .next u ∧
      (20 + 2 * pr ≤ s.ds.len.toNat → u.ds.resp = okCode) ∧
      (s.ds.len.toNat < 20 + 2 * pr → u.ds.resp = ErrorKind.tooShort.code) := by
  have hcases := execArpDecode_cases s
  rw [arpWidths_eq, ← hpr, arpLength_mk] at hcases
  rcases hcases with ⟨_, he⟩ | ⟨_, hout, _⟩ | ⟨_, _, _, he⟩ | ⟨_, _, _, he⟩
  · exact ⟨_, he, fun _ => by omega, fun _ => rfl⟩
  · omega
  · exact ⟨_, he, fun _ => by omega, fun _ => rfl⟩
  · exact ⟨_, he, fun _ => rfl, fun _ => by omega⟩

/-- Settles O53: the decode's answer decides between the window's words and the error. -/
theorem arpFrameParse : Obligations.ArpFrameParse := by
  rintro s k _ p pr m hm hmode hunit hs rfl hframe hk htags hcode hp hpr
  have hin : EtherClass.arp.HandedOffIn m := .inl ⟨rfl, hmode⟩
  have hload : s.Loaded m k := ⟨hm, hin.ne_reserved, hs, hframe, hk, htags⟩
  obtain ⟨d, hrun, h⟩ := hload.exists_run_handedOff (classify_eq_arp.2 hcode) hin
  obtain rfl : d.ds.base.toNat = p := h.toNat_base.trans hp.symm
  have hlen : s.frameLen.toNat - d.ds.base.toNat = d.ds.len.toNat := by rw [h.toNat_len, hp]
  rw [← h.be16] at hpr
  obtain ⟨u, hu, hok, hshort⟩ := exists_exec_arpDecode h.input_le hpr
  obtain ⟨_, hother, _⟩ := downstreamFrame .arpDecode d u (.inl rfl) hu
  obtain ⟨hip, hopt⟩ := hother rfl
  have hres := h.frameResults_takeAnswer hunit hu
  rw [hlen]
  refine ⟨_, h.run_parse hunit hu hrun, ⟨rfl, rfl, rfl⟩, hres.addrViews, hres.vlanInfo, hres.tags,
    hres.others, hcode ▸ hres.etherType, h.payload_takeAnswer hunit hu, hip.trans h.ip,
    hopt.trans h.ipOpt, rfl, rfl, fun hr => ?_, fun hr => ?_⟩
  · have hwords := arpWindowWords d u _ pr rfl hpr hu (hok hr)
    rw [h.be16, h.bufByte] at hwords
    exact ⟨h.takeAnswer_ok hunit hu (hok hr), hwords⟩
  · obtain ⟨hstatus, harp, _⟩ := h.takeAnswer_error hunit hu (hshort hr)
    exact ⟨hstatus, harp⟩

/-! ### IPv4 frames (44_ipv4_reference.md R201, R202, R216, R217) -/

/-- IPV4_DECODE answers on every input that lies in the buffer. -/
theorem answers_execIpv4Decode_of_le
    (hin : s.ds.base.toNat + s.ds.len.toNat ≤ s.config.maxFrameLen.toNat) :
    Answers (execIpv4Decode s) := by
  rcases execIpv4Decode_cases s with ⟨_, he⟩ | ⟨_, _, _⟩ | ⟨_, _, _, he⟩ | ⟨_, _, _, _, _, he⟩ |
    ⟨_, _, _, _, _, he⟩
  · exact ⟨_, he⟩
  · omega
  · exact ⟨_, he⟩
  · exact ⟨_, he⟩
  · exact ⟨_, he⟩

/-- A header of five words has no options region, so the slots stay. -/
theorem execIpv4Decode_of_five (h20 : 20 ≤ s.ds.len.toNat)
    (hin : s.ds.base.toNat + s.ds.len.toNat ≤ s.config.maxFrameLen.toNat)
    (h5 : (ipIhl s s.ds.base.toNat).toNat = 5) :
    execIpv4Decode s = .next (((s.setWalk s.ipWalk).setIp (ipWindowOf s s.ds.base.toNat [])
      s.ipOpt).answer okCode) :=
  execIpv4Decode_of_optionList h20 hin (by omega) (by omega) (.atEnd (by omega))

/-- Settles O54: the unit's checks in their order, then the option list; the decode has one outcome,
which each clause's case names. -/
theorem ipv4FrameParse : Obligations.Ipv4FrameParse := by
  rintro s k _ p n m hm hmode hunit hs rfl hframe hk htags hcode hp hn
  have hin : EtherClass.ipv4.HandedOffIn m := .inr ⟨rfl, hmode⟩
  have hload : s.Loaded m k := ⟨hm, hin.ne_reserved, hs, hframe, hk, htags⟩
  obtain ⟨d, hrun, h⟩ := hload.exists_run_handedOff (classify_eq_ipv4.2 hcode) hin
  obtain rfl : d.ds.base.toNat = p := h.toNat_base.trans hp.symm
  have hlen : s.frameLen.toNat - d.ds.base.toNat = d.ds.len.toNat := by rw [h.toNat_len, hp]
  rw [← h.bufByte] at hn
  obtain ⟨u, hu⟩ := answers_execIpv4Decode_of_le h.input_le
  obtain ⟨hshort, hbad, _⟩ := ipv4HeaderChecks d _ _ n rfl rfl hn h.input_le
  have hlist := ipv4DecodeFollowsOptionList d _ _ n rfl rfl hn
  obtain ⟨_, _, harp, _⟩ := downstreamFrame .ipv4Decode d u (.inr rfl) hu
  have hres := h.frameResults_takeAnswer hunit hu
  rw [hlen]
  refine ⟨_, h.run_parse hunit hu hrun, ⟨rfl, rfl, rfl⟩, hres.addrViews, hres.vlanInfo, hres.tags,
    hres.others, hcode ▸ hres.etherType, h.payload_takeAnswer hunit hu, (harp rfl).trans h.arp,
    rfl, rfl, fun hr => ?short, fun h20 hr => ?badHeader, fun h20 h5 => ?five,
    fun h20 h5 hr => ⟨fun opts hopts => ?list, fun hnone => ?noList⟩⟩
  case short =>
    cases (hshort hr).symm.trans hu
    obtain ⟨hstatus, _, hwindows⟩ := h.takeAnswer_error (x := .tooShort) hunit hu rfl
    exact ⟨hstatus, hwindows⟩
  case badHeader =>
    cases (hbad h20 hr).symm.trans hu
    obtain ⟨hstatus, _, hwindows⟩ := h.takeAnswer_error (x := .invalidHeaderLength) hunit hu rfl
    exact ⟨hstatus, hwindows⟩
  case five =>
    cases (execIpv4Decode_of_five h20 h.input_le (hn.symm.trans h5)).symm.trans hu
    exact ⟨h.takeAnswer_ok hunit hu rfl, h.ipOpt⟩
  case list =>
    rw [← h.bufByte] at hopts
    obtain ⟨hsome, _⟩ := hlist h20 h.input_le h5 hr
    obtain ⟨_, ht, hframe, _, _, _, hslots, hbehind⟩ := hsome opts hopts
    cases ht.symm.trans hu
    have hok : u.ds.resp = okCode := by rw [hframe]; rfl
    have hcount : u.ip.optCount = BitVec.ofNat 8 opts.length := by rw [hframe]
    have hwords := ipv4WindowWords d u _ n rfl hn hu hok
    rw [h.be16, h.bufByte, hcount] at hwords
    obtain ⟨hver, hid, httl, hsrc, hdst, hinfo⟩ := hwords
    exact ⟨h.takeAnswer_ok hunit hu hok, hver, hid, httl, hsrc, hdst, hinfo, hslots,
      fun j hj => (hbehind j hj).trans (congrArg (arrayRead · j) h.ipOpt)⟩
  case noList =>
    rw [← h.bufByte] at hnone
    obtain ⟨_, hno⟩ := hlist h20 h.input_le h5 hr
    obtain ⟨_, ht, hframe, _⟩ := hno hnone
    cases ht.symm.trans hu
    have hresp : u.ds.resp = ErrorKind.invalidOptions.code := by rw [hframe]; rfl
    obtain ⟨hstatus, _, hwindows⟩ := h.takeAnswer_error hunit hu hresp
    exact ⟨hstatus, hwindows⟩

end Sys2Proof.Machine
end

section
/-! SUPPORT and O48. The outcome relation, update by update: a step that leaves STATUS, MODE_L and the
hand-off's class keeps it, and each way in which a parse begins, is handed off or ends restores it
(60_exceptions.md R271, 45_frame_fsm.md R250). -/

namespace Sys2Proof.Machine

theorem EtherClass.frameClass_ne_unclassified (e : EtherClass) : e.frameClass ≠ .unclassified := by
  cases e <;> nofun

theorem EtherClass.frameClass_eq_arp {e : EtherClass} : e.frameClass = .arp ↔ e = .arp := by
  cases e <;> decide

theorem EtherClass.frameClass_eq_ipv4 {e : EtherClass} : e.frameClass = .ipv4 ↔ e = .ipv4 := by
  cases e <;> decide

/-- An answer that R247 allows and that is not OK is one of the three downstream errors. -/
theorem errorCode_of_toNat_le {r : BitVec 4} (hr : r.toNat ≤ 3) (hne : r ≠ okCode) :
    r = ErrorKind.tooShort.code ∨ r = ErrorKind.invalidHeaderLength.code ∨
      r = ErrorKind.invalidOptions.code := by
  revert r
  decide

namespace State.OutcomeOk

variable {s t : State}

/-! ### Updates of other registers -/

/-- The relation speaks of STATUS, MODE_L and the hand-off's class, and of STATE only as DS_WAIT or
not. -/
theorem congr (h : s.OutcomeOk) (hstatus : t.status = s.status) (hmode : t.modeL = s.modeL)
    (hcls : t.ds.cls = s.ds.cls)
    (hwait : t.state = StateCode.dsWait ↔ s.state = StateCode.dsWait) : t.OutcomeOk where
  running := hstatus ▸ h.running
  unclassified hbusy hs := hstatus ▸ h.unclassified (hstatus ▸ hbusy) (mt hwait.2 hs)
  handedOff hs := by rw [hstatus, hmode, hcls]; exact h.handedOff (hwait.1 hs)
  success := by rw [hstatus, hmode]; exact h.success
  downstreamError := hstatus ▸ h.downstreamError
  engineError := by rw [hstatus, hmode]; exact h.engineError

/-- The engine moves on between two codes outside DS_WAIT. -/
theorem advance (h : s.OutcomeOk) (hs : s.state ≠ StateCode.dsWait)
    (ht : t.state ≠ StateCode.dsWait) (hstatus : t.status = s.status) (hmode : t.modeL = s.modeL)
    (hds : t.ds = s.ds) : t.OutcomeOk :=
  h.congr hstatus hmode (by rw [hds]) (iff_of_false ht hs)

theorem setMoves (h : s.OutcomeOk) (ms : List Move) : (s.setMoves ms).OutcomeOk := { h with }

/-! ### The beginning of a parse, and reset -/

theorem resetWith (c : ConfigReg) (d : DsUnit) : (State.resetWith c d).OutcomeOk where
  running := nofun
  unclassified := nofun
  handedOff := nofun
  success := nofun
  downstreamError := nofun
  engineError := nofun

theorem takeReset (s : State) : s.takeReset.OutcomeOk := { resetWith s.config s.dsUnit with }

theorem beginParse (s : State) (m : ParseMode) : (s.beginParse m).OutcomeOk where
  running _ := ⟨rfl, rfl⟩
  unclassified _ _ := rfl
  handedOff := nofun
  success := nofun
  downstreamError := nofun
  engineError := nofun

/-! ### The end of a parse, and the hand-off -/

/-- While a parse runs no downstream error stands. -/
theorem not_errDs (h : s.OutcomeOk) (hbusy : s.status.busy = true) : ¬ s.status.errDs = true :=
  ne_true_of_eq_false (h.running hbusy).2

/-- A parse that TOO_SHORT or TAG_OVERFLOW ends is not yet classified (60_exceptions.md R270). -/
theorem raise_unclassified (h : s.OutcomeOk) (hbusy : s.status.busy = true)
    (hs : s.state ≠ StateCode.dsWait) {e : ErrorKind} (he : e = .tooShort ∨ e = .tagOverflow) :
    (s.raise e).OutcomeOk where
  running := nofun
  unclassified := nofun
  handedOff := nofun
  success _ hok := by rcases he with rfl | rfl <;> cases hok
  downstreamError herr := absurd herr (h.not_errDs hbusy)
  engineError _ _ _ := .inl ⟨he.imp (congrArg ErrorKind.code) (congrArg ErrorKind.code),
    h.unclassified hbusy hs⟩

/-- DISPATCH ends a parse without error only for a code that is neither ARP nor IPv4, in mode AUTO. -/
theorem classified_finish (h : s.OutcomeOk) (hbusy : s.status.busy = true)
    (hc : classify s.code = .other) (hm : s.modeL = .auto) :
    (s.classified.finish okCode).OutcomeOk := by
  have hcls : s.classified.status.cls = .unknown := congrArg EtherClass.frameClass hc
  exact {
    running := nofun
    unclassified := nofun
    handedOff := nofun
    success _ _ := ⟨eq_false_of_ne_true (h.not_errDs hbusy), by simp [hcls], fun _ => hm,
      by simp [hcls], by simp [hcls]⟩
    downstreamError herr := absurd herr (h.not_errDs hbusy)
    engineError _ hne := absurd rfl hne }

/-- DISPATCH raises NOT_ARP or NOT_IPV4 in the mode that expects the class, with the class found
(60_exceptions.md R270). -/
theorem classified_raise (h : s.OutcomeOk) (hbusy : s.status.busy = true) {e : ErrorKind}
    (he : e = .notArp ∧ s.modeL = .expectArp ∧ classify s.code ≠ .arp ∨
      e = .notIpv4 ∧ s.modeL = .expectIpv4 ∧ classify s.code ≠ .ipv4) :
    (s.classified.raise e).OutcomeOk where
  running := nofun
  unclassified := nofun
  handedOff := nofun
  success _ hok := by rcases he with ⟨rfl, _⟩ | ⟨rfl, _⟩ <;> cases hok
  downstreamError herr := absurd herr (h.not_errDs hbusy)
  engineError _ _ _ := .inr <| he.imp
    (fun ⟨he, hm, hc⟩ => ⟨congrArg ErrorKind.code he, hm, EtherClass.frameClass_ne_unclassified _,
      mt EtherClass.frameClass_eq_arp.1 hc⟩)
    (fun ⟨he, hm, hc⟩ => ⟨congrArg ErrorKind.code he, hm, EtherClass.frameClass_ne_unclassified _,
      mt EtherClass.frameClass_eq_ipv4.1 hc⟩)

/-- DISPATCH hands off a class in a mode that takes it (45_frame_fsm.md R240). -/
theorem classified_issue (h : s.OutcomeOk) (hbusy : s.status.busy = true)
    (hdone : ¬ s.status.done = true) {c : DsClass}
    (hc : classify s.code = .arp ∧ c = .arp ∧ s.modeL ≠ .expectIpv4 ∨
      classify s.code = .ipv4 ∧ c = .ipv4 ∧ s.modeL ≠ .expectArp) :
    (s.classified.issue c).OutcomeOk where
  running _ := h.running hbusy
  unclassified _ hs := absurd rfl hs
  handedOff _ := hc.imp (fun ⟨hc, hds, hm⟩ => ⟨EtherClass.frameClass_eq_arp.2 hc, hds, hm⟩)
    (fun ⟨hc, hds, hm⟩ => ⟨EtherClass.frameClass_eq_ipv4.2 hc, hds, hm⟩)
  success hd := absurd hd hdone
  downstreamError herr := absurd herr (h.not_errDs hbusy)
  engineError hd := absurd hd hdone

/-- DS_WAIT marks exactly the error answers as the downstream unit's (45_frame_fsm.md R243). -/
theorem takeAnswer_errDs (h : s.OutcomeOk) (hbusy : s.status.busy = true) :
    s.takeAnswer.status.errDs = (s.ds.resp != okCode) := by
  simp [State.takeAnswer, h.not_errDs hbusy]

/-- DS_WAIT ends the parse with the class that was handed off and the unit's answer. -/
theorem takeAnswer (h : s.OutcomeOk) (hs : s.state = StateCode.dsWait)
    (hbusy : s.status.busy = true) (hresp : s.ds.resp.toNat ≤ 3) : s.takeAnswer.OutcomeOk := by
  have hcls := h.handedOff hs
  have herr := h.takeAnswer_errDs hbusy
  exact {
    running := nofun
    unclassified := nofun
    handedOff := nofun
    success _ hok := by
      have hok : s.ds.resp = okCode := hok
      refine ⟨by simp [herr, hok], ?_⟩
      rcases hcls with ⟨hcls, _, hm⟩ | ⟨hcls, _, hm⟩ <;> simp [State.takeAnswer, hcls, hm]
    downstreamError herr' := by
      have hne : s.ds.resp ≠ okCode := by simpa [herr] using herr'
      exact ⟨errorCode_of_toNat_le hresp hne, hcls.imp And.left And.left⟩
    engineError _ hne herr' := by
      have hok : s.ds.resp = okCode := by simpa [herr] using herr'
      exact absurd hok hne }

/-! ### The engine's operations -/

section

variable (hinv : s.Inv) (h : s.OutcomeOk)
include hinv h

theorem of_execEthAddr (hs : s.state = StateCode.ethAddr) (he : execEthAddr s = .next t) :
    t.OutcomeOk := by
  have hbusy := hinv.busyIff.2 (hs ▸ nofun)
  rcases execEthAddr_cases s with ⟨_, ht⟩ | ⟨_, ht⟩ <;> cases ht.symm.trans he
  · exact h.raise_unclassified hbusy (hs ▸ nofun) (.inl rfl)
  · exact h.advance (hs ▸ nofun) nofun rfl rfl rfl

theorem of_execTagPeek (hs : s.state = StateCode.tagPeek) (he : execTagPeek s = .next t) :
    t.OutcomeOk := by
  have hbusy := hinv.busyIff.2 (hs ▸ nofun)
  rcases execTagPeek_cases s with ⟨_, ht⟩ | ⟨_, _, ht⟩ | ⟨_, _, _, ht⟩ | ⟨_, _, _, ht⟩ <;>
    cases ht.symm.trans he
  · exact h.raise_unclassified hbusy (hs ▸ nofun) (.inl rfl)
  · exact h.advance (hs ▸ nofun) nofun rfl rfl rfl
  · exact h.advance (hs ▸ nofun) nofun rfl rfl rfl

theorem of_execTagRead (hs : s.state = StateCode.tagRead) (he : execTagRead s = .next t) :
    t.OutcomeOk := by
  have hbusy := hinv.busyIff.2 (hs ▸ nofun)
  rcases execTagRead_cases s with ⟨_, ht⟩ | ⟨_, _, ht⟩ | ⟨_, _, _, ht⟩ | ⟨_, _, _, ht⟩ <;>
    cases ht.symm.trans he
  · exact h.raise_unclassified hbusy (hs ▸ nofun) (.inl rfl)
  · exact h.raise_unclassified hbusy (hs ▸ nofun) (.inr rfl)
  · exact h.advance (hs ▸ nofun) nofun rfl rfl rfl

theorem of_execDispatch (hs : s.state = StateCode.dispatch) (he : execDispatch s = .next t) :
    t.OutcomeOk := by
  have hbusy := hinv.busyIff.2 (hs ▸ nofun)
  have hdone (hdone : s.status.done = true) := hinv.busyDone ⟨hbusy, hdone⟩
  obtain ⟨_, hv, _⟩ := hinv.atDispatch (.inl hs)
  rcases execDispatch_cases s hv with ⟨hc, hm, _, ht⟩ | ⟨hc, hm, _, ht⟩ | ⟨hc, hm, ht⟩ |
    ⟨hc, hm, ht⟩ | ⟨hc, hm, ht⟩ | ⟨_, ht⟩ <;> cases ht.symm.trans he
  · exact h.classified_issue hbusy hdone (.inl ⟨hc, rfl, hm⟩)
  · exact h.classified_issue hbusy hdone (.inr ⟨hc, rfl, hm⟩)
  · exact h.classified_finish hbusy hc hm
  · exact h.classified_raise hbusy (.inl ⟨rfl, hm, hc⟩)
  · exact h.classified_raise hbusy (.inr ⟨rfl, hm, hc⟩)

theorem of_execDsWait (hs : s.state = StateCode.dsWait) (he : execDsWait s = .next t) :
    t.OutcomeOk := by
  cases hack : s.ds.ack with
  | false => cases (execDsWait_of_no_ack hack).symm.trans he; exact h
  | true =>
    cases (execDsWait_of_ack hack).symm.trans he
    exact h.takeAnswer hs (hinv.busyIff.2 (hs ▸ nofun)) hinv.resp

theorem of_engineStep (he : engineStep s = .next t) : t.OutcomeOk := by
  rcases engineStep_cases s with ⟨_, ht⟩ | ⟨hs, ht⟩ | ⟨hs, ht⟩ | ⟨hs, ht⟩ | ⟨hs, ht⟩ | ⟨hs, ht⟩ |
    ⟨hs, ht⟩ | ⟨_, ht⟩ <;> rw [ht] at he
  · cases he; exact h
  · exact of_execEthAddr hinv h hs he
  · exact of_execTagPeek hinv h hs he
  · exact of_execTagRead hinv h hs he
  · cases he; exact h.advance (hs ▸ nofun) nofun rfl rfl rfl
  · exact of_execDispatch hinv h hs he
  · exact of_execDsWait hinv h hs he
  · cases he

end

/-! ### The other agents -/

theorem of_downstreamStep (h : s.OutcomeOk) (he : downstreamStep s = .next t) : t.OutcomeOk := by
  rcases exec_of_downstreamStep he with ⟨_, rfl⟩ | ⟨hr, _⟩
  · exact h
  · rw [downstreamStep_frame hr he]
    exact h.congr rfl rfl rfl .rfl

theorem of_externalStep (h : s.OutcomeOk) {x : ExternalAnswer} (he : externalStep x s = .next t) :
    t.OutcomeOk := by
  rcases externalStep_cases x s with ⟨_, ht⟩ | ⟨_, ⟨_, ht⟩ | ⟨_, _, ht⟩ | ⟨_, ht⟩⟩ <;>
    cases ht.symm.trans he
  · exact h
  · exact h.congr rfl rfl rfl .rfl
  · rw [State.writeDrawn_frame]
    exact h.congr rfl rfl rfl .rfl

theorem of_hostAccess (h : s.OutcomeOk) {a : HostAccess} (he : hostAccess a s = .next t) :
    t.OutcomeOk := by
  rcases hostAccess_cases he with ⟨_, rfl⟩ | rfl | ⟨_, rfl⟩ | ⟨_, _, hctrl⟩ | ⟨_, _, _, _, _, rfl⟩
  · exact h.congr rfl rfl rfl .rfl
  · exact h
  · exact h.congr rfl rfl rfl .rfl
  · rcases exec_decodeCtrl_next hctrl with rfl | ⟨_, _, rfl⟩
    · exact h.congr rfl rfl rfl .rfl
    · exact beginParse _ _
  · exact h.congr rfl rfl rfl .rfl

/-- A combinational row writes the model's own variables only (log 7). -/
theorem of_combinational (h : s.OutcomeOk) {i : Instr}
    (hi : i.space = .etherType ∨ i.space = .arpProto ∨ i.space = .optType)
    (he : exec i s = .next t) : t.OutcomeOk := by
  rw [exec_combinational_frame hi he]
  exact h.congr rfl rfl rfl .rfl

theorem of_runMove (hinv : s.Inv) (h : s.OutcomeOk) {m : Move} (he : runMove m s = .next t) :
    t.OutcomeOk := by
  cases m with
  | host a => exact h.of_hostAccess he
  | engine => exact of_engineStep hinv h he
  | downstream => exact h.of_downstreamStep he
  | external x => exact h.of_externalStep he
  | reset => cases he; exact takeReset s
  | classify c =>
    obtain ⟨_, hspace, _⟩ := decodeEtherType_hasWord c
    exact h.of_combinational (.inl hspace) he
  | selectWidths f =>
    obtain ⟨_, hspace, _⟩ := decodeArpProto_hasWord f
    exact h.of_combinational (.inr (.inl hspace)) he
  | optionByte b =>
    obtain ⟨_, hspace, _⟩ := decodeOptType_hasWord b
    exact h.of_combinational (.inr (.inr hspace)) he

end State.OutcomeOk

/-- Settles O48: whichever agent takes the step, it leaves what the relation speaks of, or it begins,
hands off or ends a parse. -/
theorem stepKeepsOutcomes : Obligations.StepKeepsOutcomes := by
  intro s t hinv h he
  cases hm : s.moves with
  | nil =>
    rw [step_nil hm] at he
    split at he
    · exact .of_engineStep hinv h he
    · exact h.of_downstreamStep he
  | cons m rest =>
    rw [step_cons hm] at he
    exact .of_runMove (hinv.setMoves rest) (h.setMoves rest) he

end Sys2Proof.Machine
end

section
/-! SUPPORT and O15. The ways in which an operation of the sequencer completes a parse (45_frame_fsm.md
R244, 60_exceptions.md R277). -/

namespace Sys2Proof.Machine

variable {s t : State}

/-- `t` is `s` after the operation `i` completed the parse: an error raised before the frame is
classified, DISPATCH with the class it found, or DS_WAIT with the downstream unit's answer. -/
def Completes (i : Instr) (s t : State) : Prop :=
  (i ≠ .dispatch ∧ i ≠ .dsWait ∧ ∃ e : ErrorKind, t = s.raise e) ∨
  (i = .dispatch ∧ ∃ c : BitVec 4, t = s.classified.finish c) ∨
  (i = .dsWait ∧ t = s.takeAnswer)

/-- An operation leaves DONE or completes the parse. -/
theorem completes_of_exec {i : Instr} (hi : i.space = .stateCode) (h : exec i s = .next t) :
    t.status.done = s.status.done ∨ Completes i s t := by
  cases i with
  | idle | etypeLatch => cases h; exact .inl rfl
  | ethAddr =>
    rcases execEthAddr_cases s with ⟨_, he⟩ | ⟨_, he⟩ <;> cases he.symm.trans h
    · exact .inr (.inl ⟨nofun, nofun, _, rfl⟩)
    · exact .inl rfl
  | tagPeek =>
    rcases execTagPeek_cases s with ⟨_, he⟩ | ⟨_, _, he⟩ | ⟨_, _, _, he⟩ | ⟨_, _, _, he⟩ <;>
      cases he.symm.trans h
    · exact .inr (.inl ⟨nofun, nofun, _, rfl⟩)
    · exact .inl rfl
    · exact .inl rfl
  | tagRead =>
    rcases execTagRead_cases s with ⟨_, he⟩ | ⟨_, _, he⟩ | ⟨_, _, _, he⟩ | ⟨_, _, _, he⟩ <;>
      cases he.symm.trans h
    · exact .inr (.inl ⟨nofun, nofun, _, rfl⟩)
    · exact .inr (.inl ⟨nofun, nofun, _, rfl⟩)
    · exact .inl rfl
  | dispatch =>
    rcases execDispatch_next h with ⟨_, rfl⟩ | ⟨c, rfl⟩
    · exact .inl rfl
    · exact .inr (.inr (.inl ⟨rfl, c, rfl⟩))
  | dsWait =>
    cases hack : s.ds.ack with
    | false => cases (execDsWait_of_no_ack hack).symm.trans h; exact .inl rfl
    | true => cases (execDsWait_of_ack hack).symm.trans h; exact .inr (.inr (.inr ⟨rfl, rfl⟩))
  | _ => cases hi

/-- Settles O15: DONE rises, so the operation completes the parse, in one of three ways. -/
theorem engineErrorsArePrecise : Obligations.EngineErrorsArePrecise := by
  intro i s t hi hdone h hdone' herr
  rcases completes_of_exec hi h with hkeep | ⟨_, hwait, _, rfl⟩ | ⟨rfl, _, rfl⟩ | ⟨rfl, rfl⟩
  · simp [hkeep, hdone] at hdone'
  · exact ⟨rfl, rfl, fun _ => rfl, fun _ => ⟨rfl, rfl⟩, fun hi => absurd hi hwait⟩
  · exact ⟨rfl, rfl, fun hi => absurd rfl hi, fun _ => ⟨rfl, rfl⟩, nofun⟩
  · have hresp : s.ds.resp ≠ okCode := herr
    exact ⟨rfl, rfl, fun _ => rfl, fun hi => absurd rfl hi,
      fun _ => ⟨by simp [State.takeAnswer, hresp], rfl⟩⟩

end Sys2Proof.Machine
end

section
/-! SUPPORT and O60. A write to FRAME_LEN and CTRL.MODE commutes with every operation of the sequencer and
with both reference decodes: each reads the latched LEN_L and MODE_L in their place (10_state.md R33, R34,
70_reset_and_hazards.md R308). -/

namespace Sys2Proof.Machine

/-! ### The write -/

/-- FRAME_LEN and CTRL.MODE as the host may rewrite them at any time. -/
def State.withInputs (s : State) (n : Half) (m : ParseMode) : State :=
  (s.setFrameLen n).setCtrlMode m

/-- The outcome with its next state's inputs rewritten. -/
def rewriteInputs (n : Half) (m : ParseMode) : Result → Result
  | .next t => .next (t.withInputs n m)
  | .fault f => .fault f
  | .refused r => .refused r

variable (s : State) (n : Half) (m : ParseMode)

/-! ### The operations: no condition reads an input, and no branch loses the write -/

theorem execEthAddr_withInputs :
    execEthAddr (s.withInputs n m) = rewriteInputs n m (execEthAddr s) := by
  simp only [execEthAddr, apply_ite (rewriteInputs n m)]
  rfl

theorem execTagPeek_withInputs :
    execTagPeek (s.withInputs n m) = rewriteInputs n m (execTagPeek s) := by
  simp only [execTagPeek, apply_ite (rewriteInputs n m)]
  rfl

theorem execTagRead_withInputs :
    execTagRead (s.withInputs n m) = rewriteInputs n m (execTagRead s) := by
  simp only [execTagRead, apply_ite (rewriteInputs n m)]
  rfl

/-- DISPATCH branches on MODE_L. -/
theorem execDispatch_withInputs :
    execDispatch (s.withInputs n m) = rewriteInputs n m (execDispatch s) := by
  have hmode : (s.withInputs n m).modeL = s.modeL := rfl
  simp only [execDispatch, hmode]
  cases s.modeL with
  | reserved => rfl
  | auto | expectArp | expectIpv4 => simp only [apply_ite (rewriteInputs n m)]; rfl

theorem execDsWait_withInputs :
    execDsWait (s.withInputs n m) = rewriteInputs n m (execDsWait s) := by
  simp only [execDsWait, apply_ite (rewriteInputs n m)]
  rfl

theorem execArpDecode_withInputs :
    execArpDecode (s.withInputs n m) = rewriteInputs n m (execArpDecode s) := by
  simp only [execArpDecode, apply_ite (rewriteInputs n m)]
  rfl

theorem ipv4Body_withInputs (p r : Nat) :
    ipv4Body (s.withInputs n m) p r = (ipv4Body s p r).withInputs n m := by
  simp only [ipv4Body, apply_ite (State.withInputs · n m)]
  rfl

theorem execIpv4Decode_withInputs :
    execIpv4Decode (s.withInputs n m) = rewriteInputs n m (execIpv4Decode s) := by
  simp only [execIpv4Decode, ipv4Body_withInputs, apply_ite (rewriteInputs n m)]
  rfl

variable {s}

theorem exec_withInputs_of_stateCode {i : Instr} (hi : i.space = .stateCode) :
    exec i (s.withInputs n m) = rewriteInputs n m (exec i s) := by
  cases i with
  | idle => rfl
  | ethAddr => exact execEthAddr_withInputs s n m
  | tagPeek => exact execTagPeek_withInputs s n m
  | tagRead => exact execTagRead_withInputs s n m
  | etypeLatch => rfl
  | dispatch => exact execDispatch_withInputs s n m
  | dsWait => exact execDsWait_withInputs s n m
  | _ => cases hi

theorem exec_withInputs_of_reference {i : Instr} (hi : i = .arpDecode ∨ i = .ipv4Decode) :
    exec i (s.withInputs n m) = rewriteInputs n m (exec i s) := by
  rcases hi with rfl | rfl
  · exact execArpDecode_withInputs s n m
  · exact execIpv4Decode_withInputs s n m

/-! ### The agents: the write changes no word that they decode -/

theorem engineStep_withInputs :
    engineStep (s.withInputs n m) = rewriteInputs n m (engineStep s) := by
  have hstate : (s.withInputs n m).state = s.state := rfl
  unfold engineStep
  rw [hstate]
  cases hd : decodeState s.state with
  | ok i =>
    obtain ⟨_, hspace, _⟩ := decodeState_hasWord hd
    exact exec_withInputs_of_stateCode n m hspace
  | reject r => rfl

theorem downstreamStep_withInputs :
    downstreamStep (s.withInputs n m) = rewriteInputs n m (downstreamStep s) := by
  have henabled : (s.withInputs n m).referenceEnabled = s.referenceEnabled := rfl
  cases hr : s.referenceEnabled with
  | false => rw [downstreamStep_disabled hr, downstreamStep_disabled (henabled.trans hr)]; rfl
  | true =>
    rw [downstreamStep_enabled hr, downstreamStep_enabled (henabled.trans hr)]
    exact exec_withInputs_of_reference n m (decodeDsClass_bit s.ds.cls)

/-- Settles O60: both agents' steps commute with the write. -/
theorem latchedInputsDoNotAffectParse : Obligations.LatchedInputsDoNotAffectParse := fun _ _ n m =>
  ⟨fun h => (engineStep_withInputs n m).trans (congrArg (rewriteInputs n m) h),
    fun h => (downstreamStep_withInputs n m).trans (congrArg (rewriteInputs n m) h)⟩

end Sys2Proof.Machine
end

section
/-! SUPPORT, O44 and O45. What taking reset leaves in the host's view of the block, and the soundness of
the state after reset (70_reset_and_hazards.md R300, R301). -/

namespace Sys2Proof.Machine

/-- Every register but CONFIG reads 0 after reset, array slots of any index included. -/
theorem State.readReg_takeReset (s : State) {r : Reg} (hr : r ≠ .config) :
    s.takeReset.readReg r = 0#32 := by
  cases r with
  | config => exact absurd rfl hr
  | ipOpt j => rfl
  | vlanTag i => simp [State.readReg, arrayRead, lookup]
  | ctrl | status =>
    simp [State.readReg, ParseMode.code, Status.word, FrameClass.code, flagBit]
  | frameLen | etherType | payload | vlanInfo | addrViews => simp [State.readReg]
  | arpFmt | arpLenOp | arpSha | arpSpa | arpTha | arpTpa =>
    simp [State.readReg, ArpWindow.zero, View.word, View.zero]
  | ipVerIhl | ipIdFrag | ipTtlProtoCsum | ipSrc | ipDst | ipOptInfo =>
    simp [State.readReg, IpWindow.zero, View.word, View.zero]

/-- Every byte of the buffer is a free value of the next epoch (log 4). -/
theorem State.bufByte_takeReset (s : State) (a : Nat) :
    s.takeReset.bufByte a = Config.bufDraw (s.bufEpoch + 1) a := rfl

theorem step_reset {s : State} {rest : List Move} (h : s.moves = .reset :: rest) :
    step s = .next (s.setMoves rest).takeReset :=
  step_cons h

/-- Settles O44: a reset step takes reset, and the values are those of `State.takeReset`. -/
theorem resetStepSetsResetValues : Obligations.ResetStepSetsResetValues := fun s rest h =>
  ⟨(s.setMoves rest).takeReset, step_reset h, rfl, rfl, rfl, rfl, rfl, rfl,
    fun _ hr => State.readReg_takeReset _ hr, rfl, rfl, rfl, rfl, rfl, State.bufByte_takeReset _⟩

/-- The parameters that the model chose are legal (log 5; 00_scope.md R8, R9). -/
theorem configDefaults_legal :
    Config.minFrameLen ≤ Config.maxFrameLen.toNat ∧ 1 ≤ Config.vlanMaxDepth.toNat := by decide

/-- Settles O45: reset establishes both relations for legal parameters, the chosen ones among them. -/
theorem resetStateIsSound : Obligations.ResetStateIsSound :=
  ⟨fun c d hlen hdepth => ⟨.resetWith ⟨hlen, hdepth⟩ d, .resetWith c d⟩,
    .resetWith configDefaults_legal _, .resetWith _ _⟩

end Sys2Proof.Machine
end
